-- ==== Sys2Proof/Word.lean ====
section
/-! DEFINITION. The two word types of the hardware: the byte of a report (R6, R33) and the 4-bit value of the two data
registers (R11, R12). -/

namespace Sys2Proof

/-- A byte is 8 bits, and every quantity is unsigned (R6). -/
abbrev Byte := BitVec 8

/-- The 4 bits of LEVEL and of TICK: the least width that holds 0 to 15 (R11, R12, D3). -/
abbrev Nibble := BitVec 4

end Sys2Proof
end

