-- ==== Sys2Proof/Config.lean ====
section
/-! DEFINITION. The fixed parameters of R4, as constants, and the open parameters of R5, as constants with no body:
nothing can be proved of their values (logs 6 and 7). PIN_RESET, the fourth open parameter, is the argument of
State.resetWith and of the reset event (log 4). -/

namespace Sys2Proof.Config

/-- MAX_STEPS (R4): tick positions in one PWM cycle. -/
def maxSteps : Nat := 16

/-- REPORT_SIZE (R4, R50): bytes in every report, both directions. -/
def reportSize : Nat := 8

/-- MAGIC0 (R4): byte 0 of ENTER_BOOTLOADER. -/
def magic0 : Byte := 0xAA

/-- MAGIC1 (R4): byte 1 of ENTER_BOOTLOADER. -/
def magic1 : Byte := 0xBB

/-- LEVEL_INDEX (R4): the index of the inbound byte that carries the raw level. -/
def levelIndex : Nat := 2

/-- LEVEL_RESET (R4). -/
def levelReset : Nibble := 0

/-- STATUS0 to STATUS3 and four times STATUS_PAD (R4): the bytes of the outbound report, byte 0 first (R59). -/
def statusReport : List Byte := [0x00, 0x01, 0x02, 0x03, 0x00, 0x00, 0x00, 0x00]

/-- BOOT_ENTRY (R5, D14): the code address of the host processor that hand-off step 4 transfers to. No source gives its
value, width or alignment; a natural number with no body. DESIGN CHOICE (log 6), safe. -/
opaque bootEntry : Nat

/-- PIN_ACTIVE_LEVEL (R5, D15): whether ON is the high electrical level. No rule depends on it. Log 7, safe. -/
opaque pinActiveHigh : Bool

/-- TICK_PERIOD (R5, D13): a positive duration in a unit no source names. No rule depends on it. Log 7, safe. -/
opaque tickPeriod : ℕ+

/-- One PWM cycle lasts 16 tick periods (R160). The machine itself models no time. -/
def cycleDuration : Nat := maxSteps * tickPeriod

end Sys2Proof.Config
end

