-- ==== Sys2Proof/Syntax.lean ====
section
/-! DEFINITION. The operations of the hardware, one constructor per row of spec/opcode_table.json (R53, R60). The two
report commands carry every byte of format IN8 that the row does not fix (R51): `lvl` is SET_LEVEL's one operand (R55),
the other fields are bytes the operation ignores (R57), kept so that no bit of a report is lost between decoding and
encoding (log 21). -/

namespace Sys2Proof

/-- One operation of the block. -/
inductive Instr where
  /-- ENTER_BOOTLOADER (R92, R54): bytes 0 and 1 are the magic sequence; bytes 2 to 7 are ignored. -/
  | enterBootloader (ign2 ign3 ign4 ign5 ign6 ign7 : Byte)
  /-- SET_LEVEL (R91, R55): `m0`, `m1` are bytes 0 and 1, `lvl` is byte 2, bytes 3 to 7 are ignored. -/
  | setLevel (m0 m1 lvl ign3 ign4 ign5 ign6 ign7 : Byte)
  /-- TICK (R70): selected by a timer event. -/
  | tick
  /-- GET_REPORT (R95): selected by a host poll. -/
  | getReport
  /-- H1A (R111): mask the timer interrupt. -/
  | h1a
  /-- H1B (R112): stop the timer clock. -/
  | h1b
  /-- H2 (R113): detach the host channel. -/
  | h2
  /-- H3 (R114): disable interrupts globally. -/
  | h3
  /-- H4 (R115): transfer control. -/
  | h4
deriving DecidableEq, Repr

end Sys2Proof
end

