-- ==== Sys2Proof/WellFormed.lean ====
section
/-! DEFINITION. Which terms of Instr stand for an operation of the hardware. The one side condition of
spec/opcode_table.json is SET_LEVEL's: bytes 0 and 1 do not form the magic sequence (R53, R55, R62). Every other field
admits every value (R57, R58). -/

namespace Sys2Proof

/-- The test of R53 on bytes 0 and 1: both must match (R54). -/
def isMagic (m0 m1 : Byte) : Bool := m0 == Config.magic0 && m1 == Config.magic1

/-- The side condition of R55; the other rows have none. -/
def Instr.wellFormed : Instr → Bool
  | .enterBootloader _ _ _ _ _ _ => true
  | .setLevel m0 m1 _ _ _ _ _ _ => !isMagic m0 m1
  | .tick => true
  | .getReport => true
  | .h1a => true
  | .h1b => true
  | .h2 => true
  | .h3 => true
  | .h4 => true

/-- The rows with a bit encoding: the two commands an inbound report selects (R53, R60). -/
def Instr.isReport : Instr → Bool
  | .enterBootloader _ _ _ _ _ _ => true
  | .setLevel _ _ _ _ _ _ _ _ => true
  | .tick => false
  | .getReport => false
  | .h1a => false
  | .h1b => false
  | .h2 => false
  | .h3 => false
  | .h4 => false

end Sys2Proof
end

