-- ==== Sys2Proof/Decode.lean ====
section
/-! DEFINITION. Decoding an inbound report (R50 to R58, R90) and encoding a command; the packing W of R52, which only
the opcode table uses. -/

namespace Sys2Proof

/-- Why a buffer selects no command: it is not an 8-byte report (R35). No 8-byte report is rejected (R58). -/
inductive DecodeError where
  /-- Fewer than 8 bytes: the caller is told `reject` (R93). -/
  | short
  /-- More than 8 bytes: no meaning (R94). -/
  | long
deriving DecidableEq, Repr

/-- The command of an 8-byte report, tested in the order of R53. -/
def decodeReport (b0 b1 b2 b3 b4 b5 b6 b7 : Byte) : Instr :=
  if isMagic b0 b1 then .enterBootloader b2 b3 b4 b5 b6 b7
  else .setLevel b0 b1 b2 b3 b4 b5 b6 b7

/-- DELIVER's decode of a buffer of any length (R90, R93, R94); byte `i` of the list is IN+i (R31, R33). -/
def decode : List Byte → Except DecodeError Instr
  | [b0, b1, b2, b3, b4, b5, b6, b7] => .ok (decodeReport b0 b1 b2 b3 b4 b5 b6 b7)
  | buf => if buf.length < Config.reportSize then .error .short else .error .long

/-- The 8 bytes of a report command, byte 0 first (R51, R54, R55); the other operations have no encoding (R60). -/
def encode : Instr → Option (List Byte)
  | .enterBootloader b2 b3 b4 b5 b6 b7 => some [Config.magic0, Config.magic1, b2, b3, b4, b5, b6, b7]
  | .setLevel m0 m1 lvl b3 b4 b5 b6 b7 => some [m0, m1, lvl, b3, b4, b5, b6, b7]
  | .tick => none
  | .getReport => none
  | .h1a => none
  | .h1b => none
  | .h2 => none
  | .h3 => none
  | .h4 => none

/-- The `n` low bytes of `w`, byte 0 (bits 7 to 0) first: the packing of R52. -/
def wordBytes : Nat → Nat → List Byte
  | 0, _ => []
  | n + 1, w => BitVec.ofNat 8 w :: wordBytes n (w / 256)

/-- The buffer that holds the table's word `w` of `nbits` bits, zeros above `nbits`, up to the one length there is
(R50). No bits at all is no report: a row without an encoding gives the empty buffer (R60, log 19). -/
def tableBytes (nbits w : Nat) : List Byte :=
  if nbits = 0 then []
  else wordBytes (max Config.reportSize ((nbits + 7) / 8)) (w % 2 ^ nbits)

/-- What the decoder reads from the table's word `w` of `nbits` bits. -/
def decodeTableWord (nbits w : Nat) : Option Instr :=
  match decode (tableBytes nbits w) with
  | .ok i => some i
  | .error _ => none

end Sys2Proof
end

