-- ==== Sys2Proof/Machine/State.lean ====
section
/-! DEFINITION. The state of the block: the nine elements of R10, what the block has put outside itself (kept for the
observer, R9), and the list of what the agents do next (R8). Reset, faults and refusals. -/

namespace Sys2Proof.Machine

/-- MODE, the hand-off state (R14). -/
inductive Mode where
  | running
  | quiescing
  | transferred
deriving DecidableEq, Repr

/-- The five events of the hand-off log HLOG (R19). -/
inductive HandoffEvent where
  | timerIrqMask
  | timerClockStop
  | channelDetach
  | globalIrqDisable
  /-- TransferControl(BOOT_ENTRY): the code address handed to the host processor (R115). -/
  | transferControl (entry : Nat)
deriving DecidableEq, Repr

/-- What a foreground operation hands back to the collaborator that called it (R9). -/
inductive Return where
  /-- The status of a short buffer (R93, R126). -/
  | rejected
  /-- The length and the force_send flag of GET_REPORT (R95). -/
  | report (length : Nat) (forceSend : Bool)
deriving DecidableEq, Repr

/-- The channel's lifecycle events, which change no state of the block (R17, R136). -/
inductive ChannelEvent where
  | connect
  | disconnect
  | configurationChanged
deriving DecidableEq, Repr

/-- What an agent does between two steps (R8, R136). DESIGN CHOICE (log 1), safe: the run's interleaving is a list of
these. -/
inductive Event where
  /-- The timer raises its interrupt request (R127). -/
  | timer
  /-- The channel delivers an inbound buffer, which is space IN for that DELIVER (R31, R90). -/
  | deliver (buf : List Byte)
  /-- The host polls for an IN-direction report (R95). -/
  | poll
  /-- The foreground context goes on by itself: its next hand-off step, or an idle turn of its poll loop (R8, R53). -/
  | foreground
  /-- A lifecycle event of the channel (R17). -/
  | channel (e : ChannelEvent)
  /-- The reset event; `pin` is PIN_RESET, what the pin set-up outside the block leaves (R150, R13, log 4). -/
  | reset (pin : Bool)
deriving DecidableEq, Repr

/-- The bytes of one address space: address and byte, addresses strictly rising. An address that is not listed has no
value (log 13). -/
abbrev Memory := List Host.Cell

/-- The state of the block (R10) and what the model keeps beside it. -/
structure State where
  /-- LEVEL (R11). -/
  level : Nibble
  /-- TICK (R12). -/
  tick : Nibble
  /-- PIN, the output latch: true is ON (R13). -/
  pin : Bool
  /-- MODE (R14). -/
  mode : Mode
  /-- TIMER_IE (R15). -/
  timerIe : Bool
  /-- TIMER_RUN (R16). -/
  timerRun : Bool
  /-- CHAN_ATTACHED (R17). -/
  chanAttached : Bool
  /-- GIE (R18). -/
  gie : Bool
  /-- HLOG, the hand-off log (R19). -/
  hlog : List HandoffEvent
  /-- The model's own: whether a TICK has written PIN since reset (R13, log 5). -/
  pinDriven : Bool
  /-- What the block has written to the host processor's pc; none while it has written nothing (R20, R115, log 6). -/
  hostPc : Option Nat
  /-- Space OUT as the last GET_REPORT left it (R32, R9, log 13). -/
  outBuf : Memory
  /-- What the foreground operations have handed back, oldest first (R9, log 14). -/
  returns : List Return
  /-- The model's own: what the agents do next, in order (R8, log 1). -/
  inputs : List Event
deriving DecidableEq, Repr

/-- Why a step stops with a fault. No operation of this hardware raises one (R125); both belong to the byte accesses of
Ops.lean, whose addresses the block always gives within range (log 22). -/
inductive Fault where
  /-- Raised by a byte access outside addresses 0 to 7, which the spaces do not have (R30). Safe. -/
  | noSuchAddress
  /-- Raised by reading a byte of a space that nothing has written (R32). Safe. -/
  | unwrittenByte
deriving DecidableEq, Repr

/-- Why a step has no meaning. -/
inductive Refusal where
  /-- An instruction without a meaning in exec. Raised by no arm of this model. Safe. -/
  | notModelled (mnemonic : String)
  /-- Raised by TICK run while TickEnabled is false: it cannot occur (R71). Safe. -/
  | tickDisabled
  /-- Raised by SET_LEVEL, ENTER_BOOTLOADER or GET_REPORT run outside MODE = Running with CHAN_ATTACHED = 1: they do
  not occur there (R98). Safe. -/
  | foregroundDisabled
  /-- Raised by a hand-off step whose precondition fails: the undefined hybrid state has no meaning (R116, U1). Safe. -/
  | handoffOutOfOrder
  /-- Raised by DELIVER of more than 8 bytes: it has no meaning (R94). Safe. -/
  | longBuffer
  /-- Raised by every event but a reset in MODE = Transferred: the run has ended (R9, R120). Safe. -/
  | runEnded
deriving DecidableEq, Repr

/-- The outcome of one step of this machine. -/
abbrev Outcome := Host.Outcome State Fault Refusal

/-- The state after a reset and the boot steps (R22, R150, R152), for a given PIN_RESET (R5). -/
def State.resetWith (pinReset : Bool) : State where
  level := Config.levelReset
  tick := 0
  pin := pinReset
  mode := .running
  timerIe := true
  timerRun := true
  chanAttached := true
  gie := true
  hlog := []
  pinDriven := false
  hostPc := none
  outBuf := []
  returns := []
  inputs := []

/-- The machine right after reset. PIN_RESET is open (R13, D5); the model names OFF. DESIGN CHOICE (log 4), unsafe: state
claims about the pin after reset over State.resetWith instead. -/
def State.reset : State := State.resetWith false

end Sys2Proof.Machine
end

