-- ==== Sys2Proof/Machine/Ops.lean ====
section
/-! DEFINITION. The named operations over registers, spaces and logs that the meanings are written with (R7); when an
operation can occur (R25, R98); the entry into the tick interrupt and the return from it (R130, R131); one hand-off step
(R116); the reset event (R150). -/

namespace Sys2Proof.Machine

/-! ### Registers (R7: `NAME <- v`) -/

/-- LEVEL <- v, one indivisible write (R37). -/
def State.writeLevel (s : State) (v : Nibble) : State := { s with level := v }

/-- TICK <- v (R12). -/
def State.writeTick (s : State) (v : Nibble) : State := { s with tick := v }

/-- PIN <- v, the set/clear call of the digital-output service (R13, R136). -/
def State.writePin (s : State) (v : Bool) : State := { s with pin := v, pinDriven := true }

/-- MODE <- m (R14). -/
def State.writeMode (s : State) (m : Mode) : State := { s with mode := m }

/-- TIMER_IE <- 0 (R15). -/
def State.maskTimer (s : State) : State := { s with timerIe := false }

/-- TIMER_RUN <- 0 (R16). -/
def State.stopTimer (s : State) : State := { s with timerRun := false }

/-- CHAN_ATTACHED <- 0 (R17). -/
def State.detachChannel (s : State) : State := { s with chanAttached := false }

/-- GIE <- 0 (R18). -/
def State.disableInterrupts (s : State) : State := { s with gie := false }

/-- `pc <- target`, on the host processor's program counter (R20, R115). -/
def State.writeHostPc (s : State) (target : Nat) : State := { s with hostPc := some target }

/-- `emit E`: append to HLOG (R7, R19). -/
def State.emit (s : State) (e : HandoffEvent) : State := { s with hlog := s.hlog ++ [e] }

/-- Hand a status back to the caller of a foreground operation (R7, R9). -/
def State.giveBack (s : State) (r : Return) : State := { s with returns := s.returns ++ [r] }

/-- Space OUT as an operation leaves it (R32). -/
def State.writeOut (s : State) (m : Memory) : State := { s with outBuf := m }

/-- The agents' list without its first event. -/
def State.dropEvent (s : State) : State := { s with inputs := s.inputs.tail }

/-- What the observer may say of PIN: no value until a TICK has written it (R13). -/
def State.pinObserved (s : State) : Option Bool := if s.pinDriven then some s.pin else none

/-- The electrical level of the output pin: high exactly when PIN is ON and ON is high, or neither (R13). -/
def State.pinHigh (s : State) : Bool := s.pin == Config.pinActiveHigh

/-! ### Byte accesses of the two spaces (R7, R30) -/

/-- The byte listed at address `a`. -/
def Memory.lookup : Memory → Nat → Option Byte
  | [], _ => none
  | (b, v) :: m, a => if a = b then some v else Memory.lookup m a

/-- Insert or replace the byte at address `a`, keeping the addresses rising. -/
def Memory.insert : Memory → Nat → Byte → Memory
  | [], a, v => [(a, v)]
  | (b, w) :: m, a, v =>
    if a < b then (a, v) :: (b, w) :: m
    else if a = b then (a, v) :: m
    else (b, w) :: Memory.insert m a v

/-- The canonical form: addresses strictly rising and each one existing (R30). No entry equals what an unlisted address
reads as, since an unlisted address has no value. -/
def Memory.wf : Memory → Bool
  | [] => true
  | (b, _) :: m => decide (b < Config.reportSize) && m.all (fun c => decide (b < c.1)) && Memory.wf m

/-- `MemRead(space + a, 1)` (R7). -/
def memRead (m : Memory) (a : Nat) : Except Fault Byte :=
  if a < Config.reportSize then
    match Memory.lookup m a with
    | some v => .ok v
    | none => .error .unwrittenByte
  else .error .noSuchAddress

/-- `MemWrite(space + a, 1, v)` (R7). -/
def memWrite (m : Memory) (a : Nat) (v : Byte) : Except Fault Memory :=
  if a < Config.reportSize then .ok (Memory.insert m a v) else .error .noSuchAddress

/-- Byte writes at rising addresses from `a` (the pseudocode of R95). -/
def memWriteAll (m : Memory) (a : Nat) : List Byte → Except Fault Memory
  | [] => .ok m
  | v :: vs =>
    match memWrite m a v with
    | .ok m' => memWriteAll m' (a + 1) vs
    | .error f => .error f

/-! ### When an operation can occur -/

/-- TickEnabled (R25). -/
def State.tickEnabled (s : State) : Bool := s.timerIe && s.timerRun && s.gie

/-- When DELIVER and GET_REPORT occur (R98). -/
def State.foregroundEnabled (s : State) : Bool := decide (s.mode = .running) && s.chanAttached

/-- A foreground operation, which occurs only where R98 says. -/
def whenForeground (s : State) (o : Outcome) : Outcome :=
  if s.foregroundEnabled then o else .refused .foregroundDisabled

/-! ### The tick interrupt -/

/-- Taking the tick interrupt saves and changes nothing of the block (R130). -/
def tickEntry (s : State) : State := s

/-- The return from the tick interrupt: the foreground goes on where it was, nothing is restored (R131). -/
def tickReturn (s : State) : State := s

/-- Taking the tick interrupt, its handler, and the return: one atomic step, taken only while TickEnabled (R71, R128). -/
def takeTickInterrupt (handler : State → State) (s : State) : Outcome :=
  if s.tickEnabled then .next (tickReturn (handler (tickEntry s))) else .refused .tickDisabled

/-! ### The hand-off (R110, R116) -/

/-- One hand-off step: in MODE = Quiescing, after exactly the log `before`, it has its effect and appends `e`. -/
def handoffStep (before : List HandoffEvent) (e : HandoffEvent) (effect : State → State) (s : State) : Outcome :=
  if s.mode = .quiescing ∧ s.hlog = before then .next ((effect s).emit e) else .refused .handoffOutOfOrder

/-- The step the log says is next (R20, R116); none for a log no hand-off in order leaves. -/
def nextHandoff : List HandoffEvent → Option Instr
  | [] => some .h1a
  | [.timerIrqMask] => some .h1b
  | [.timerIrqMask, .timerClockStop] => some .h2
  | [.timerIrqMask, .timerClockStop, .channelDetach] => some .h3
  | [.timerIrqMask, .timerClockStop, .channelDetach, .globalIrqDisable] => some .h4
  | _ => none

/-! ### Reset -/

/-- The reset event (R150): every state element takes its reset value, whatever it held; what the agents do afterwards
stays (log 20). -/
def resetEvent (pinReset : Bool) (s : State) : State := { State.resetWith pinReset with inputs := s.inputs }

end Sys2Proof.Machine
end

