-- ==== Sys2Proof/Machine/Handoff.lean ====
section
/-! DEFINITION. The bootloader hand-off: its five steps (R111 to R115), each over the shared operation `handoffStep`. -/

namespace Sys2Proof.Machine

/-- H1A (R111): TIMER_IE <- 0. -/
def execH1A (s : State) : Outcome := handoffStep [] .timerIrqMask State.maskTimer s

/-- H1B (R112): TIMER_RUN <- 0. -/
def execH1B (s : State) : Outcome := handoffStep [.timerIrqMask] .timerClockStop State.stopTimer s

/-- H2 (R113): CHAN_ATTACHED <- 0. -/
def execH2 (s : State) : Outcome :=
  handoffStep [.timerIrqMask, .timerClockStop] .channelDetach State.detachChannel s

/-- H3 (R114): GIE <- 0. -/
def execH3 (s : State) : Outcome :=
  handoffStep [.timerIrqMask, .timerClockStop, .channelDetach] .globalIrqDisable State.disableInterrupts s

/-- What H4 does beside the log (R115): MODE <- Transferred, then the host processor's pc <- BOOT_ENTRY. -/
def transferControl (s : State) : State := (s.writeMode .transferred).writeHostPc Config.bootEntry

/-- H4 (R115). -/
def execH4 (s : State) : Outcome :=
  handoffStep [.timerIrqMask, .timerClockStop, .channelDetach, .globalIrqDisable]
    (.transferControl Config.bootEntry) transferControl s

end Sys2Proof.Machine
end

