-- ==== Sys2Proof/Machine/Operands.lean ====
section
/-! DEFINITION. The one operand form of the hardware: the level operand of SET_LEVEL (R56). The other eight operations
have no operand read from their encoding. -/

namespace Sys2Proof.Machine

/-- The value SET_LEVEL writes (R56, R91, R99): the byte, read as unsigned, saturated at MAX_STEPS-1 = 15. -/
def clampLevel (lvl : Byte) : Nibble :=
  if lvl.toNat ≥ Config.maxSteps - 1 then BitVec.ofNat 4 (Config.maxSteps - 1) else lvl.extractLsb' 0 4

end Sys2Proof.Machine
end

