-- ==== Sys2Proof/Machine/Report.lean ====
section
/-! DEFINITION. The command-report demultiplexer: SET_LEVEL (R91), the decode step of ENTER_BOOTLOADER (R92) and
GET_REPORT (R95), operations of the foreground context. -/

namespace Sys2Proof.Machine

/-- SET_LEVEL (R91): the clamp first, then one write of LEVEL, nothing else. -/
def execSetLevel (lvl : Byte) (s : State) : Outcome := whenForeground s (.next (s.writeLevel (clampLevel lvl)))

/-- ENTER_BOOTLOADER, the decode step (R92): MODE only. -/
def execEnterBootloader (s : State) : Outcome := whenForeground s (.next (s.writeMode .quiescing))

/-- GET_REPORT (R95): the eight writes to space OUT, which exists from the start of this operation (R32), then length 8
and force_send 0 to the caller. -/
def execGetReport (s : State) : Outcome :=
  whenForeground s
    (match memWriteAll [] 0 Config.statusReport with
     | .ok m => .next ((s.writeOut m).giveBack (.report Config.reportSize false))
     | .error f => .fault f)

end Sys2Proof.Machine
end

