-- ==== Sys2Proof/Machine/Flags.lean ====
section
/-! DEFINITION. The hardware has no flag (R21). This file holds the comparisons inside TICK that other machines would keep
as flags: they are consumed in the same step (R73). -/

namespace Sys2Proof.Machine

/-- `t[4:0]`, the incremented counter: exact in 5 bits, 1 to 16, never stored (R70, R73). -/
def tickNext (t : Nibble) : BitVec 5 := t.zeroExtend 5 + 1

/-- The cycle boundary: the incremented counter reaches MAX_STEPS (R70). -/
def atBoundary (t : BitVec 5) : Bool := t == BitVec.ofNat 5 Config.maxSteps

/-- The mid-cycle comparison of source step 3, strict and unsigned (R70, R73). The spec's resolution C1. -/
def aboveLevel (t : BitVec 5) (l : Nibble) : Bool := l.zeroExtend 5 < t

/-- The boundary comparison of source step 2 (R70). -/
def levelAboveZero (l : Nibble) : Bool := 0 < l

end Sys2Proof.Machine
end

