-- ==== Sys2Proof/Machine/Tick.lean ====
section
/-! DEFINITION. The PWM duty-cycle engine: TICK, the one operation of the interrupt context (R70). -/

namespace Sys2Proof.Machine

/-- The handler of the tick interrupt: the pseudocode of R70, LEVEL read once (R72). -/
def tickBody (s : State) : State :=
  let l := s.level
  let t := tickNext s.tick
  if atBoundary t then (s.writeTick 0).writePin (levelAboveZero l)
  else if aboveLevel t l then (s.writeTick (t.truncate 4)).writePin false
  else s.writeTick (t.truncate 4)

/-- TICK (R70, R71). -/
def execTick (s : State) : Outcome := takeTickInterrupt tickBody s

end Sys2Proof.Machine
end

