-- ==== Sys2Proof/Machine/Dispatch.lean ====
section
/-! DEFINITION. One arm per operation of spec/opcode_table.json. -/

namespace Sys2Proof.Machine

def exec (i : Instr) (s : State) : Host.Outcome State Fault Refusal :=
  match i with
  | .enterBootloader _ _ _ _ _ _ => Sys2Proof.Machine.execEnterBootloader s
  | .setLevel _ _ lvl _ _ _ _ _ => Sys2Proof.Machine.execSetLevel lvl s
  | .tick => Sys2Proof.Machine.execTick s
  | .getReport => Sys2Proof.Machine.execGetReport s
  | .h1a => Sys2Proof.Machine.execH1A s
  | .h1b => Sys2Proof.Machine.execH1B s
  | .h2 => Sys2Proof.Machine.execH2 s
  | .h3 => Sys2Proof.Machine.execH3 s
  | .h4 => Sys2Proof.Machine.execH4 s

end Sys2Proof.Machine
end

