-- ==== Sys2Proof/Machine/Agents.lean ====
section
/-! DEFINITION. What an agent's event makes the block do (R8, R136): which operation it selects (R53, R60) and when it
selects none. -/

namespace Sys2Proof.Machine

/-- DELIVER of a buffer of any length (R90): 8 bytes select a command; a short buffer is rejected, the status going to the
caller (R93); a long one has no meaning (R94). -/
def deliver (buf : List Byte) (s : State) : Outcome :=
  match decode buf with
  | .ok i => exec i s
  | .error .short => .next (s.giveBack .rejected)
  | .error .long => .refused .longBuffer

/-- The foreground context's turn: in Quiescing the hand-off step that is next, by itself (R53, R116); in Running an idle
turn of the poll loop, no effect (R8). DESIGN CHOICE for the idle turn (log 23), safe. -/
def foregroundTurn (s : State) : Outcome :=
  if s.mode = .quiescing then
    match nextHandoff s.hlog with
    | some i => exec i s
    | none => .refused .handoffOutOfOrder
  else .next s

/-- One event before the transfer. A timer event while TickEnabled is false, and a delivery or a poll while the
foreground is not polling, select no operation: they are not taken and nothing is remembered (R26, R98, R119). DESIGN
CHOICE for the step that consumes such an event (log 3), safe. -/
def handleLive (e : Event) (s : State) : Outcome :=
  match e with
  | .timer => if s.tickEnabled then exec .tick s else .next s
  | .deliver buf => if s.foregroundEnabled then deliver buf s else .next s
  | .poll => if s.foregroundEnabled then exec .getReport s else .next s
  | .foreground => foregroundTurn s
  | .channel _ => .next s
  | .reset pin => .next (resetEvent pin s)

/-- After the transfer the run has ended and only a reset goes on (R9, R120, R150). -/
def handleEnded (e : Event) (s : State) : Outcome :=
  match e with
  | .timer => .refused .runEnded
  | .deliver _ => .refused .runEnded
  | .poll => .refused .runEnded
  | .foreground => .refused .runEnded
  | .channel _ => .refused .runEnded
  | .reset pin => .next (resetEvent pin s)

/-- One event in any mode. -/
def handle (e : Event) (s : State) : Outcome :=
  if s.mode = .transferred then handleEnded e s else handleLive e s

/-- The event that comes next. With nothing listed the timer goes on ticking, and a hand-off that has begun goes on
(R53, R153, R161). DESIGN CHOICE (log 2). -/
def nextEvent (s : State) : Event :=
  match s.inputs with
  | e :: _ => e
  | [] => if s.mode = .quiescing then .foreground else .timer

end Sys2Proof.Machine
end

