-- ==== Sys2Proof/Machine/Step.lean ====
section
/-! DEFINITION. One step of the machine: take the next event, handle it. -/

namespace Sys2Proof.Machine

/-- One atomic step (R8). -/
def step (s : State) : Host.Outcome State Fault Refusal := handle (nextEvent s) s.dropEvent

/-- `s` with the table's word delivered next: the channel presents the 8 bytes to the foreground context before anything
else happens (log 18). -/
def State.withFetchWord (s : State) (nbits w : Nat) : State :=
  { s with inputs := .deliver (tableBytes nbits w) :: s.inputs }

end Sys2Proof.Machine
end

