-- ==== Sys2Proof/Machine/Trace.lean ====
section
/-! DEFINITION. The trace form of R61, the pseudo-operations of R62, and what it is to be a run of the machine: a list of
lines, each one enabled when it is reached (R8). It stands beside `step`, which takes its interleaving from State. -/

namespace Sys2Proof.Machine

/-- One line of a trace (R61). -/
inductive TraceLine where
  | reset (pin : Bool)
  | tick
  /-- REPORT and REPORT<n>: a DELIVER of the bytes given. -/
  | report (buf : List Byte)
  | getReport
  | h1a
  | h1b
  | h2
  | h3
  | h4
deriving DecidableEq, Repr

/-- The agent's event that makes the machine do the line. -/
def TraceLine.event : TraceLine → Event
  | .reset pin => .reset pin
  | .tick => .timer
  | .report buf => .deliver buf
  | .getReport => .poll
  | .h1a => .foreground
  | .h1b => .foreground
  | .h2 => .foreground
  | .h3 => .foreground
  | .h4 => .foreground

/-- One line executed: refused where the operation it names is not enabled (R71, R98, R116). -/
def runLine (l : TraceLine) (s : State) : Outcome :=
  match l with
  | .reset pin => .next (resetEvent pin s)
  | .tick => exec .tick s
  | .report buf => whenForeground s (deliver buf s)
  | .getReport => exec .getReport s
  | .h1a => exec .h1a s
  | .h1b => exec .h1b s
  | .h2 => exec .h2 s
  | .h3 => exec .h3 s
  | .h4 => exec .h4 s

/-- A trace executed top to bottom as one interleaving (R61). -/
def runTrace : List TraceLine → State → Outcome
  | [], s => .next s
  | l :: ls, s =>
    match runLine l s with
    | .next t => runTrace ls t
    | .fault f => .fault f
    | .refused r => .refused r

/-- `SET_LEVEL v` (R62), with the zero filler bytes. -/
def Trace.setLevel (v : Byte) : List TraceLine := [.report [0, 0, v, 0, 0, 0, 0, 0]]

/-- `ENTER_BOOTLOADER` (R62), followed by the five steps with no TICK between. -/
def Trace.enterBootloader : List TraceLine :=
  [.report [0xAA, 0xBB, 0, 0, 0, 0, 0, 0], .h1a, .h1b, .h2, .h3, .h4]

/-- `TICKS n` (R62). -/
def Trace.ticks (n : Nat) : List TraceLine := List.replicate n .tick

/-- `CYCLE` (R62). -/
def Trace.cycle : List TraceLine := Trace.ticks Config.maxSteps

end Sys2Proof.Machine
end

