-- ==== Sys2Proof/Safety.lean ====
section
/-! DEFINITION. What claims about this hardware speak of (R9): runs, the invariants of R24 and the stronger one that every
step keeps, what the observer sees, and the spec-level functions that say what a list of events does. -/

namespace Sys2Proof.Machine

/-! ### Runs -/

/-- `n` steps of the machine, stopping at the first fault or refusal. -/
def runSteps : Nat → State → Outcome
  | 0, s => .next s
  | n + 1, s =>
    match step s with
    | .next t => runSteps n t
    | .fault f => .fault f
    | .refused r => .refused r

/-- One step for each event of the list, and nothing after it. -/
def runEvents (es : List Event) (s : State) : Outcome := runSteps es.length { s with inputs := es }

/-- The first `n` events of an endless stream of what the agents do, one step for each (R8, R41). An endless run of the
machine is a stream all of whose beginnings run: no agent ever falls silent for want of a list. DESIGN CHOICE for the
form (log 29), safe. -/
def runStream (ev : Nat → Event) (n : Nat) (s : State) : Outcome := runEvents ((List.range n).map ev) s

/-- A stream in which what `e` says comes again and again. -/
def Recurs (ev : Nat → Event) (e : Event) : Prop := ∀ n, ∃ m, n ≤ m ∧ ev m = e

/-- Fairness (R161), the one assumption that stands in for time, of a stream from `s`. It names no event of the host:
nothing is assumed of it (R161 (iii)). -/
structure Fair (s : State) (ev : Nat → Event) : Prop where
  /-- R161 (i): the timer does not stop producing events while TickEnabled goes on holding. -/
  timer : ∀ n, (∀ m, n ≤ m → ∃ t, runStream ev m s = .next t ∧ t.tickEnabled = true) → ∃ m, n ≤ m ∧ ev m = .timer
  /-- R161 (ii): while the hand-off goes on, and so one of its steps is enabled, the foreground gets another turn. -/
  foreground : ∀ n, (∀ m, n ≤ m → ∃ t, runStream ev m s = .next t ∧ t.mode = .quiescing) →
    ∃ m, n ≤ m ∧ ev m = .foreground

/-- PIN straight after `n` timer events (false where the run does not complete). -/
def pinAfterTicks (n : Nat) (s : State) : Bool :=
  match runEvents (List.replicate n .timer) s with
  | .next t => t.pin
  | .fault _ => false
  | .refused _ => false

/-! ### Invariants -/

/-- The five events of a whole hand-off, in order (R19, R116). -/
def handoffLog : List HandoffEvent :=
  [.timerIrqMask, .timerClockStop, .channelDetach, .globalIrqDisable, .transferControl Config.bootEntry]

/-- R24 (iii), (iv) and (v); (i) and (ii) hold by the width of the registers. -/
structure RuleR24 (s : State) : Prop where
  running : s.mode = .running →
    s.timerIe = true ∧ s.timerRun = true ∧ s.chanAttached = true ∧ s.gie = true ∧ s.hlog = []
  transferred : s.mode = .transferred →
    s.timerIe = false ∧ s.timerRun = false ∧ s.chanAttached = false ∧ s.gie = false ∧ s.hlog = handoffLog
  log : s.hlog <+: handoffLog

/-- The invariant every step keeps: the log is the start of a hand-off in order, and it says how far every enable, MODE
and the host processor's pc have come (R24, R110 to R116); space OUT has its canonical form. -/
structure StateInv (s : State) : Prop where
  log : s.hlog = handoffLog.take s.hlog.length
  timerIe : s.timerIe = decide (s.hlog.length < 1)
  timerRun : s.timerRun = decide (s.hlog.length < 2)
  chanAttached : s.chanAttached = decide (s.hlog.length < 3)
  gie : s.gie = decide (s.hlog.length < 4)
  running : s.mode = .running → s.hlog.length = 0
  transferred : s.mode = .transferred ↔ s.hlog.length = 5
  hostPc : s.hostPc = if s.hlog.length = 5 then some Config.bootEntry else none
  outBuf : Memory.wf s.outBuf = true

/-- Everything a TICK, a DELIVER and a GET_REPORT need (R25, R98): what R24 (iii) says of MODE = Running. -/
structure Ready (s : State) : Prop where
  mode : s.mode = .running
  timerIe : s.timerIe = true
  timerRun : s.timerRun = true
  chanAttached : s.chanAttached = true
  gie : s.gie = true

/-- The place of a hand-off step in the sequence (R110). -/
def handoffIndex : Instr → Option Nat
  | .h1a => some 0
  | .h1b => some 1
  | .h2 => some 2
  | .h3 => some 3
  | .h4 => some 4
  | .enterBootloader _ _ _ _ _ _ => none
  | .setLevel _ _ _ _ _ _ _ _ => none
  | .tick => none
  | .getReport => none

/-! ### What a list of events does, said from the rules -/

/-- The level a delivered buffer asks for: byte 2 of an 8-byte report without the magic prefix, saturated (R53, R56). -/
def requestedLevel : List Byte → Option Nat
  | [b0, b1, b2, _, _, _, _, _] => if b0 = 0xAA ∧ b1 = 0xBB then none else some (min b2.toNat 15)
  | _ => none

/-- An event after which a running block is still running: no reset, no ENTER_BOOTLOADER, no long buffer. -/
def ordinaryEvent : Event → Bool
  | .timer => true
  | .deliver buf => decide (buf.length < 8) || (requestedLevel buf).isSome
  | .poll => true
  | .foreground => true
  | .channel _ => true
  | .reset _ => false

/-- An event other than a reset. -/
def notReset : Event → Bool
  | .reset _ => false
  | .timer => true
  | .deliver _ => true
  | .poll => true
  | .foreground => true
  | .channel _ => true

/-- How many timer events a list holds. -/
def timerCount (es : List Event) : Nat := es.count .timer

/-- The level after a list of events: the last request, or the level before (R42 (ii)). -/
def levelAfter : Nat → List Event → Nat
  | l, [] => l
  | l, .deliver buf :: es => levelAfter ((requestedLevel buf).getD l) es
  | l, _ :: es => levelAfter l es

/-- A SET_LEVEL straight before each of `n` timer events: tick `k` reads `L k`, saturated (R77). -/
def waveEvents (L : Nat → Byte) (n : Nat) : List Event :=
  (List.range n).flatMap fun k => [.deliver [0, 0, L k, 0, 0, 0, 0, 0], .timer]

/-! ### What the outside can tell apart -/

/-- The state without what only the PWM engine reads and drives. -/
def State.withoutPwm (s : State) : State := { s with level := 0, tick := 0, pin := false, pinDriven := false }

/-- Two states no collaborator but the pin can tell apart (R96): equal but for LEVEL, TICK and PIN. -/
def sameToHost (s t : State) : Prop := s.withoutPwm = t.withoutPwm

/-- The nine elements of R10 are equal: nothing the spec calls state differs. -/
structure SameElements (s t : State) : Prop where
  level : t.level = s.level
  tick : t.tick = s.tick
  pin : t.pin = s.pin
  mode : t.mode = s.mode
  timerIe : t.timerIe = s.timerIe
  timerRun : t.timerRun = s.timerRun
  chanAttached : t.chanAttached = s.chanAttached
  gie : t.gie = s.gie
  hlog : t.hlog = s.hlog

/-- How far the hand-off has come, as a number (R14, R110). -/
def Mode.rank : Mode → Nat
  | .running => 0
  | .quiescing => 1
  | .transferred => 2

end Sys2Proof.Machine
end

