-- ==== Sys2Proof/Certificates/Slice0/Obligations.lean ====
section
/-! DEFINITION. The statements about this model, for the provers. Each docstring names the rule or the sentence of spec/
that it formalises; "log <n>" is a convention of the model (notes/assumptions/<n>.md) that a clause rests on. -/

open Sys2Proof Sys2Proof.Machine

/-! ### Encoding -/

/-- Every well-formed report command, with every byte of its format at every value, is encoded in 8 bytes that decode to it
(30_encoding.md sections 1 and 2). -/
def Obligations.DecodeEncodeRoundTrip : Prop :=
  ∀ i : Instr, i.wellFormed = true → i.isReport = true →
    ∃ buf, encode i = some buf ∧ buf.length = 8 ∧ decode buf = .ok i

/-- Every buffer that decodes is the encoding of what it decodes to, which is a well-formed report command; so no two
buffers decode alike and no byte is dropped. That Instr keeps the ignored bytes is the model's choice (log 21). -/
def Obligations.EncodeDecodeRoundTrip : Prop :=
  ∀ (buf : List Byte) (i : Instr), decode buf = .ok i →
    i.wellFormed = true ∧ i.isReport = true ∧ encode i = some buf

/-- R58: every 8-byte report is one of the two commands, never a SET_LEVEL with the magic bytes; no other buffer is an
encoding; a SET_LEVEL whose clamped level is the level already there changes nothing. -/
def Obligations.EveryReportIsACommand : Prop :=
  (∀ buf : List Byte, buf.length = 8 →
    (∃ b2 b3 b4 b5 b6 b7, decode buf = .ok (.enterBootloader b2 b3 b4 b5 b6 b7)) ∨
    (∃ m0 m1 lvl b3 b4 b5 b6 b7, decode buf = .ok (.setLevel m0 m1 lvl b3 b4 b5 b6 b7) ∧ ¬(m0 = 0xAA ∧ m1 = 0xBB))) ∧
  (∀ (buf : List Byte) (i : Instr), buf.length ≠ 8 → decode buf ≠ .ok i) ∧
  (∀ (s : State) (m0 m1 lvl b3 b4 b5 b6 b7 : Byte), s.mode = .running → s.chanAttached = true →
    s.level.toNat = min lvl.toNat 15 → exec (.setLevel m0 m1 lvl b3 b4 b5 b6 b7) s = .next s)

/-- The match and mask of spec/opcode_table.json on the packing W (30_encoding.md sections 1 and 2, R52's notation is the
spec's own): a 64-bit word is ENTER_BOOTLOADER exactly when its low 16 bits are 0xBBAA, and otherwise SET_LEVEL of bits
23 to 16. -/
def Obligations.OpcodeTableMatchesDecoder : Prop :=
  ∀ w : Nat, w < 2 ^ 64 →
    (w &&& 0xFFFF = 0xBBAA →
      ∃ b2 b3 b4 b5 b6 b7, decodeTableWord 64 w = some (.enterBootloader b2 b3 b4 b5 b6 b7)) ∧
    (w &&& 0xFFFF ≠ 0xBBAA →
      ∃ m0 m1 lvl b3 b4 b5 b6 b7, decodeTableWord 64 w = some (.setLevel m0 m1 lvl b3 b4 b5 b6 b7) ∧
        lvl.toNat = (w >>> 16) % 256)

/-- Reports of the spec's vector V8 (95_test_vectors.md), byte 0 first, and what they decode to. -/
def Obligations.VectorReportsDecode : Prop :=
  decode [0x00, 0x00, 0x05, 0x00, 0x00, 0x00, 0x00, 0x00] = .ok (.setLevel 0x00 0x00 0x05 0 0 0 0 0) ∧
  decode [0xAA, 0xBB, 0x05, 0x01, 0x02, 0x03, 0x04, 0x05] = .ok (.enterBootloader 0x05 0x01 0x02 0x03 0x04 0x05) ∧
  decode [0xAA, 0x00, 0x05, 0x00, 0x00, 0x00, 0x00, 0x00] = .ok (.setLevel 0xAA 0x00 0x05 0 0 0 0 0) ∧
  decode [0x00, 0xBB, 0x07, 0x00, 0x00, 0x00, 0x00, 0x00] = .ok (.setLevel 0x00 0xBB 0x07 0 0 0 0 0) ∧
  decode [0xAA, 0xAA, 0xBB, 0x00, 0x00, 0x00, 0x00, 0x00] = .ok (.setLevel 0xAA 0xAA 0xBB 0 0 0 0 0)

/-! ### What a step runs -/

/-- A step with a delivered buffer at the head of the agents' list runs the command the buffer decodes to, on the state
without that event (R8, R90; the list is the model's, log 1). -/
def Obligations.StepRunsDecodedCommand : Prop :=
  ∀ (s : State) (buf : List Byte) (rest : List Event) (i : Instr),
    s.inputs = .deliver buf :: rest → s.mode = .running → s.chanAttached = true → decode buf = .ok i →
    step s = exec i { s with inputs := rest }

/-- A step takes the first event of the agents' list and handles it on the state without that event; with nothing listed the
timer ticks in Running and the foreground goes on in Quiescing (the list and this default are the model's choices, logs 1
and 2; 00_scope.md section 6, 70_reset_and_hazards.md section 3). -/
def Obligations.StepHandlesTheNextEvent : Prop :=
  (∀ (s : State) (e : Event) (rest : List Event), s.inputs = e :: rest → step s = handle e { s with inputs := rest }) ∧
  (∀ s : State, s.inputs = [] → s.mode = .running → step s = handle .timer s) ∧
  (∀ s : State, s.inputs = [] → s.mode = .quiescing → step s = handle .foreground s)

/-- R53: an 8-byte report selects one of the two commands by bytes 0 and 1, the magic pair first; a timer event selects
TICK, a host poll GET_REPORT; the hand-off steps follow by themselves, each when the log says it is next. -/
def Obligations.EventsSelectOperations : Prop :=
  ∀ s : State,
    (∀ b0 b1 b2 b3 b4 b5 b6 b7 : Byte, s.mode = .running → s.chanAttached = true →
      handle (.deliver [b0, b1, b2, b3, b4, b5, b6, b7]) s =
        exec (if b0 = 0xAA ∧ b1 = 0xBB then .enterBootloader b2 b3 b4 b5 b6 b7
          else .setLevel b0 b1 b2 b3 b4 b5 b6 b7) s) ∧
    (s.mode ≠ .transferred → s.timerIe = true → s.timerRun = true → s.gie = true →
      handle .timer s = exec .tick s) ∧
    (s.mode = .running → s.chanAttached = true → handle .poll s = exec .getReport s) ∧
    (∀ (i : Instr) (k : Nat), s.mode = .quiescing → handoffIndex i = some k → s.hlog = handoffLog.take k →
      handle .foreground s = exec i s)

/-- A word put where step fetches runs next (log 18): in a running block, and for every 64-bit word. -/
def Obligations.FetchedWordRunsNext : Prop :=
  ∀ (s : State) (w : Nat), s.mode = .running → s.chanAttached = true → w < 2 ^ 64 →
    ∃ i, decodeTableWord 64 w = some i ∧ step (s.withFetchWord 64 w) = exec i s

/-- Before the transfer, an event that selects no operation is not taken and changes nothing but the agents' list: a timer
event while TickEnabled is false (R119: "not taken at all"), a delivery or a poll while the foreground does not poll
(R98), a lifecycle event of the channel (R17). That such an event is consumed by a step is the model's choice (log 3,
log 23). -/
def Obligations.EventsNotTakenChangeNothing : Prop :=
  ∀ (s : State) (e : Event) (rest : List Event), s.inputs = e :: rest → s.mode ≠ .transferred →
    ((e = .timer ∧ s.tickEnabled = false) ∨
     (((∃ buf, e = .deliver buf) ∨ e = .poll) ∧ s.foregroundEnabled = false) ∨
     (∃ c, e = .channel c) ∨
     (e = .foreground ∧ s.mode = .running)) →
    step s = .next { s with inputs := rest }

/-- R125: no operation faults, from any state whatever. -/
def Obligations.StepNeverFaults : Prop :=
  ∀ (s : State) (f : Fault), step s ≠ .fault f

/-- In a state of the invariant a step stops only where the spec gives no step: a buffer longer than 8 bytes
(41_report_commands.md section 2, the spec's decision D8) or anything but a reset after the transfer
(42_bootloader_handoff.md section 3, D19). -/
def Obligations.StepStopsOnlyWithoutMeaning : Prop :=
  ∀ (s : State) (r : Refusal), StateInv s →
    (step s = .refused r ↔
      (r = .longBuffer ∧ s.mode = .running ∧ ∃ buf rest, s.inputs = .deliver buf :: rest ∧ 8 < buf.length) ∨
      (r = .runEnded ∧ s.mode = .transferred ∧ ∀ p rest, s.inputs ≠ .reset p :: rest))

/-! ### SET_LEVEL, ENTER_BOOTLOADER, GET_REPORT -/

/-- R91, R56: SET_LEVEL leaves LEVEL = min(lvl, 15), read as an unsigned byte, and everything else as it was. -/
def Obligations.SetLevelWritesClampedLevel : Prop :=
  ∀ (s : State) (m0 m1 lvl b3 b4 b5 b6 b7 : Byte), s.mode = .running → s.chanAttached = true →
    ∃ t, exec (.setLevel m0 m1 lvl b3 b4 b5 b6 b7) s = .next t ∧
      t = { s with level := t.level } ∧ t.level.toNat = min lvl.toNat 15

/-- Of two SET_LEVEL operations the later one determines LEVEL, and delivering one twice is delivering it once
(20_memory.md sections 2 and 4). -/
def Obligations.LastSetLevelWins : Prop :=
  ∀ (s t : State) (m0 m1 a b3 b4 b5 b6 b7 : Byte) (n0 n1 b c3 c4 c5 c6 c7 : Byte),
    exec (.setLevel m0 m1 a b3 b4 b5 b6 b7) s = .next t →
    exec (.setLevel n0 n1 b c3 c4 c5 c6 c7) t = exec (.setLevel n0 n1 b c3 c4 c5 c6 c7) s

/-- The decode step of ENTER_BOOTLOADER writes MODE only (41_report_commands.md section 1). -/
def Obligations.EnterBootloaderSetsQuiescing : Prop :=
  ∀ (s : State) (b2 b3 b4 b5 b6 b7 : Byte), s.mode = .running → s.chanAttached = true →
    exec (.enterBootloader b2 b3 b4 b5 b6 b7) s = .next { s with mode := .quiescing }

/-- GET_REPORT puts 00 01 02 03 00 00 00 00 into space OUT, hands back length 8 and force_send 0, and changes nothing else
(41_report_commands.md section 3; bytes 4 to 7 are the spec's decision D10; where the results are kept is the model's
choice, logs 13 and 14). -/
def Obligations.GetReportGivesStatusReport : Prop :=
  ∀ s : State, s.mode = .running → s.chanAttached = true →
    ∃ t, exec .getReport s = .next t ∧
      t = { s with outBuf := t.outBuf, returns := s.returns ++ [.report 8 false] } ∧
      SameElements s t ∧
      memRead t.outBuf 0 = .ok 0x00 ∧ memRead t.outBuf 1 = .ok 0x01 ∧
      memRead t.outBuf 2 = .ok 0x02 ∧ memRead t.outBuf 3 = .ok 0x03 ∧
      (∀ a, 4 ≤ a → a < 8 → memRead t.outBuf a = .ok 0x00) ∧
      (∀ a, 8 ≤ a → memRead t.outBuf a = memRead s.outBuf a)

/-- SET_LEVEL, ENTER_BOOTLOADER and GET_REPORT do not occur outside MODE = Running with CHAN_ATTACHED = 1
(41_report_commands.md section 4); the model refuses them by name there (log 17). -/
def Obligations.ForegroundOnlyWhileRunning : Prop :=
  ∀ (s : State) (i : Instr), (i.isReport = true ∨ i = .getReport) →
    ¬(s.mode = .running ∧ s.chanAttached = true) → exec i s = .refused .foregroundDisabled

/-- An operation that is not enabled is refused by name: TICK while TickEnabled is false (40_pwm_tick.md section 1), a
hand-off step out of order (42_bootloader_handoff.md section 3, 93_implementation_defined.md U1). The names are the
model's (log 17). -/
def Obligations.DisabledOperationsRefusedByName : Prop :=
  ∀ s : State,
    (¬(s.timerIe = true ∧ s.timerRun = true ∧ s.gie = true) → exec .tick s = .refused .tickDisabled) ∧
    (∀ (i : Instr) (k : Nat), handoffIndex i = some k → ¬(s.mode = .quiescing ∧ s.hlog = handoffLog.take k) →
      exec i s = .refused .handoffOutOfOrder)

/-- R97: a DELIVER of 8 bytes does exactly one of two things, one write of LEVEL or the start of the hand-off; GET_REPORT
has no effect on the block's state. -/
def Obligations.DeliverHasOneOfTwoEffects : Prop :=
  ∀ s : State, s.mode = .running → s.chanAttached = true →
    (∀ b0 b1 b2 b3 b4 b5 b6 b7 : Byte, ∃ t, deliver [b0, b1, b2, b3, b4, b5, b6, b7] s = .next t ∧
      (b0 = 0xAA ∧ b1 = 0xBB → t = { s with mode := .quiescing }) ∧
      (¬(b0 = 0xAA ∧ b1 = 0xBB) → t = { s with level := BitVec.ofNat 4 (min b2.toNat 15) })) ∧
    (∃ t, exec .getReport s = .next t ∧ SameElements s t)

/-- R57: in SET_LEVEL bytes 3 to 7 change nothing and bytes 0 and 1 matter only through the test; in ENTER_BOOTLOADER bytes
2 to 7 change nothing. -/
def Obligations.IgnoredBytesChangeNothing : Prop :=
  ∀ s : State,
    (∀ b0 b1 c0 c1 b2 b3 b4 b5 b6 b7 c3 c4 c5 c6 c7 : Byte,
      ¬(b0 = 0xAA ∧ b1 = 0xBB) → ¬(c0 = 0xAA ∧ c1 = 0xBB) →
      deliver [b0, b1, b2, b3, b4, b5, b6, b7] s = deliver [c0, c1, b2, c3, c4, c5, c6, c7] s) ∧
    (∀ b2 b3 b4 b5 b6 b7 c2 c3 c4 c5 c6 c7 : Byte,
      deliver [0xAA, 0xBB, b2, b3, b4, b5, b6, b7] s = deliver [0xAA, 0xBB, c2, c3, c4, c5, c6, c7] s)

/-- A buffer of fewer than 8 bytes, whatever it begins with, changes no element of the block's state; the caller gets
`reject` and the run goes on (41_report_commands.md section 2, the spec's decision D9; the log of statuses is the model's,
log 14). -/
def Obligations.ShortBufferRejected : Prop :=
  ∀ (s : State) (buf : List Byte) (rest : List Event), s.inputs = .deliver buf :: rest →
    s.mode = .running → s.chanAttached = true → buf.length < 8 →
    step s = .next { s with inputs := rest, returns := s.returns ++ [.rejected] }

/-- A buffer of more than 8 bytes has no meaning and is refused (41_report_commands.md section 2, the spec's decision
D8; log 12). -/
def Obligations.LongBufferRefused : Prop :=
  ∀ (s : State) (buf : List Byte) (rest : List Event), s.inputs = .deliver buf :: rest →
    s.mode = .running → s.chanAttached = true → 8 < buf.length → step s = .refused .longBuffer

/-! ### TICK -/

/-- R70: the counter goes up by one modulo 16; the boundary tick sets PIN by LEVEL above 0; a mid-cycle tick clears PIN when
the incremented counter is strictly above LEVEL and otherwise leaves it; nothing else changes (`pinDriven` is the model's
own record of the write, and no clause speaks of it). -/
def Obligations.TickAdvancesCounterAndPin : Prop :=
  ∀ s : State, s.timerIe = true → s.timerRun = true → s.gie = true →
    ∃ t, exec .tick s = .next t ∧
      t = { s with tick := t.tick, pin := t.pin, pinDriven := t.pinDriven } ∧
      (s.tick.toNat = 15 → t.tick.toNat = 0 ∧ t.pin = decide (0 < s.level.toNat)) ∧
      (s.tick.toNat ≠ 15 → t.tick.toNat = s.tick.toNat + 1 ∧
        t.pin = if s.tick.toNat + 1 > s.level.toNat then false else s.pin)

/-- R71: a TICK occurs exactly when TickEnabled holds, without regard to MODE or CHAN_ATTACHED, and one timer event is
exactly one TICK. -/
def Obligations.TickOccursExactlyWhenEnabled : Prop :=
  ∀ s : State,
    ((∃ t, exec .tick s = .next t) ↔ s.timerIe = true ∧ s.timerRun = true ∧ s.gie = true) ∧
    (StateInv s → s.timerIe = true → s.timerRun = true → s.gie = true → handle .timer s = exec .tick s)

/-- A TICK that writes PIN is recorded, so that PIN has an observable value from the first such TICK on and from no earlier
point (10_state.md section 3; `pinDriven` is the model's own field, log 5). -/
def Obligations.PinObservedFromFirstWrite : Prop :=
  ∀ s t : State, exec .tick s = .next t →
    t.pinObserved =
      if s.tick.toNat = 15 ∨ s.tick.toNat + 1 > s.level.toNat then some t.pin else s.pinObserved

/-- The law of the period (40_pwm_tick.md section 2, the spec's derivation): in a running block, whatever reports, polls and
other ordinary events are interleaved, the counter has gone up by the number of timer events modulo 16, every event is
taken in one step, and the block is still running. -/
def Obligations.TickCountsModuloSixteen : Prop :=
  ∀ (s : State) (es : List Event), Ready s → es.all ordinaryEvent = true →
    ∃ t, runEvents es s = .next t ∧ Ready t ∧ t.tick.toNat = (s.tick.toNat + timerCount es) % 16

/-- No torn level (20_memory.md sections 2 and 4; 95_test_vectors.md S7): after any ordinary events LEVEL is the level of the
last SET_LEVEL among them, saturated, or the level before when there is none. -/
def Obligations.LevelIsLastWholeWrite : Prop :=
  ∀ (s : State) (es : List Event), Ready s → es.all ordinaryEvent = true →
    ∃ t, runEvents es s = .next t ∧ t.level.toNat = levelAfter s.level.toNat es

/-- The waveform of a whole cycle with a level of its own for every tick (40_pwm_tick.md section 2, the spec's derivation):
PIN in slot n is ON exactly when the level read by the boundary tick is above 0 and every later tick k up to n reads a
level of at least k. -/
def Obligations.WaveformOfOneCycle : Prop :=
  ∀ (s : State) (L : Nat → Byte) (n : Nat), Ready s → s.tick.toNat = 15 → n ≤ 15 →
    ∃ t, runEvents (waveEvents L (n + 1)) s = .next t ∧ t.tick.toNat = n ∧
      t.pin = decide (0 < min (L 0).toNat 15 ∧ ∀ k, k < n + 1 → k ≤ min (L k).toNat 15)

/-- ON slots per cycle at constant level (40_pwm_tick.md section 2, the spec's resolution C1): none at level 0, otherwise one
more than the level. -/
def Obligations.OnSlotsPerCycle : Prop :=
  ∀ s : State, Ready s → s.tick.toNat = 15 →
    (List.range 16).countP (fun n => pinAfterTicks (n + 1) s) = if s.level.toNat = 0 then 0 else s.level.toNat + 1

/-- Within a cycle, ticks at constant level keep PIN ON exactly while the counter has not passed the level
(40_pwm_tick.md section 2, level change case (ii)). -/
def Obligations.PinWithinCycle : Prop :=
  ∀ (s : State) (n : Nat), Ready s → 1 ≤ n → s.tick.toNat + n ≤ 15 →
    ∃ t, runEvents (List.replicate n .timer) s = .next t ∧ t.tick.toNat = s.tick.toNat + n ∧
      t.pin = (s.pin && decide (s.tick.toNat + n ≤ s.level.toNat))

/-- PIN that is OFF stays OFF up to the next boundary, whatever levels are set in between (40_pwm_tick.md section 2, level
change case (i)). -/
def Obligations.PinStaysOffUntilBoundary : Prop :=
  ∀ (s : State) (es : List Event), Ready s → es.all ordinaryEvent = true → s.pin = false →
    s.tick.toNat + timerCount es ≤ 15 → ∃ t, runEvents es s = .next t ∧ t.pin = false

/-- Who writes PIN (40_pwm_tick.md section 2, the spec's derivation): apart from a reset, PIN changes only in a step whose
event is the timer's, and it rises only in a boundary tick that reads a level above 0. -/
def Obligations.PinChangesOnlyByTick : Prop :=
  ∀ s t : State, step s = .next t → notReset (nextEvent s) = true → t.pin ≠ s.pin →
    nextEvent s = .timer ∧ s.tickEnabled = true ∧
      (t.pin = true → s.tick.toNat = 15 ∧ 0 < s.level.toNat ∧ t.tick.toNat = 0) ∧
      (t.pin = false → s.level.toNat = 0 ∨ (s.tick.toNat ≠ 15 ∧ s.level.toNat < s.tick.toNat + 1))

/-- At level 0 PIN is OFF after every TICK, the boundary's too (40_pwm_tick.md section 1, corner case; 90_conflicts.md
C2). -/
def Obligations.LevelZeroIsDark : Prop :=
  ∀ (s : State) (n : Nat), Ready s → s.level.toNat = 0 → 1 ≤ n →
    ∃ t, runEvents (List.replicate n .timer) s = .next t ∧ t.pin = false ∧ t.level.toNat = 0

/-! ### The hand-off -/

/-- R111: H1A clears TIMER_IE and logs TimerIrqMask, nothing else; from then on, without a reset, TickEnabled is false and no
TICK occurs again: TICK and PIN keep their values in every state that is reached. -/
def Obligations.H1AMasksTheTimer : Prop :=
  ∀ s : State, s.mode = .quiescing → s.hlog = [] →
    ∃ t, exec .h1a s = .next t ∧ t = { s with timerIe := false, hlog := [.timerIrqMask] } ∧
      ∀ (n : Nat) (es : List Event) (u : State), es.all notReset = true →
        runSteps n { t with inputs := es } = .next u → u.tickEnabled = false ∧ u.tick = s.tick ∧ u.pin = s.pin

/-- R112: H1B clears TIMER_RUN and logs TimerClockStop, nothing else. -/
def Obligations.H1BStopsTheTimerClock : Prop :=
  ∀ s : State, s.mode = .quiescing → s.hlog = [.timerIrqMask] →
    exec .h1b s = .next { s with timerRun := false, hlog := [.timerIrqMask, .timerClockStop] }

/-- R113: H2 clears CHAN_ATTACHED and logs ChannelDetach, nothing else; from then on, without a reset, no report is delivered
and no poll is made: in every state that is reached the channel is detached, no foreground operation goes on to a next state,
and LEVEL, space OUT and what was handed back are as H2 found them. -/
def Obligations.H2DetachesTheChannel : Prop :=
  ∀ s : State, s.mode = .quiescing → s.hlog = [.timerIrqMask, .timerClockStop] →
    ∃ t, exec .h2 s = .next t ∧
      t = { s with chanAttached := false, hlog := [.timerIrqMask, .timerClockStop, .channelDetach] } ∧
      ∀ (n : Nat) (es : List Event) (u : State), es.all notReset = true →
        runSteps n { t with inputs := es } = .next u →
        u.chanAttached = false ∧ u.level = s.level ∧ u.outBuf = s.outBuf ∧ u.returns = s.returns ∧
          ∀ (i : Instr) (v : State), (i.isReport = true ∨ i = .getReport) → exec i u ≠ .next v

/-- R114: H3 clears GIE and logs GlobalIrqDisable, nothing else; TickEnabled was already false and is false on a second
ground. -/
def Obligations.H3DisablesInterrupts : Prop :=
  ∀ s : State, s.mode = .quiescing → s.hlog = [.timerIrqMask, .timerClockStop, .channelDetach] →
    ∃ t, exec .h3 s = .next t ∧
      t = { s with gie := false
                   hlog := [.timerIrqMask, .timerClockStop, .channelDetach, .globalIrqDisable] } ∧
      (StateInv s → s.tickEnabled = false) ∧ t.tickEnabled = false

/-- R115: H4 logs TransferControl(BOOT_ENTRY), sets MODE to Transferred and writes BOOT_ENTRY to the host processor's pc,
nothing else; the run ends there. -/
def Obligations.H4TransfersControl : Prop :=
  ∀ s : State, s.mode = .quiescing →
    s.hlog = [.timerIrqMask, .timerClockStop, .channelDetach, .globalIrqDisable] →
    ∃ t, exec .h4 s = .next t ∧
      t = { s with mode := .transferred
                   hostPc := some Config.bootEntry
                   hlog := [.timerIrqMask, .timerClockStop, .channelDetach, .globalIrqDisable,
                     .transferControl Config.bootEntry] } ∧
      ∀ es : List Event, (∀ p rest, es ≠ .reset p :: rest) → step { t with inputs := es } = .refused .runEnded

/-- R116: a hand-off step is enabled exactly by MODE = Quiescing and the log its predecessor leaves, and leaves the log one
event longer; in Quiescing no other foreground operation goes on to a next state; when MODE is Transferred the log is the whole one. -/
def Obligations.HandoffStepsOnlyInOrder : Prop :=
  ∀ (s : State),
    (∀ (i : Instr) (k : Nat), handoffIndex i = some k →
      ((∃ t, exec i s = .next t) ↔ s.mode = .quiescing ∧ s.hlog = handoffLog.take k) ∧
      (∀ t, exec i s = .next t → t.hlog = handoffLog.take (k + 1))) ∧
    (s.mode = .quiescing → ∀ (i : Instr) (v : State), (i.isReport = true ∨ i = .getReport) → exec i s ≠ .next v) ∧
    (StateInv s → s.mode = .transferred → s.hlog = handoffLog)

/-- A hand-off that has begun reaches H4 (42_bootloader_handoff.md section 3, 70_reset_and_hazards.md section 3): in a state of
the invariant, without a reset, as soon as the foreground has had as many turns as there are steps left, whatever else is
interleaved; LEVEL keeps its value. The turns are the model's form of fairness (logs 1 and 24). -/
def Obligations.HandoffReachesTransferred : Prop :=
  ∀ (s : State) (es : List Event), StateInv s → s.mode = .quiescing → es.all notReset = true →
    5 - s.hlog.length ≤ es.count .foreground →
    ∃ n t, n ≤ es.length ∧ runSteps n { s with inputs := es } = .next t ∧ t.mode = .transferred ∧
      t.hlog = handoffLog ∧ t.hostPc = some Config.bootEntry ∧ t.level = s.level

/-- A hand-off that has begun completes in at most five steps when no agent does anything else (42_bootloader_handoff.md
section 3, 70_reset_and_hazards.md section 3). That the foreground goes on by itself with nothing listed is the model's
choice (log 2). -/
def Obligations.HandoffCompletesByItself : Prop :=
  ∀ s : State, StateInv s → s.mode = .quiescing → s.inputs = [] →
    ∃ t, runSteps (5 - s.hlog.length) s = .next t ∧ t.mode = .transferred ∧ t.hlog = handoffLog ∧
      t.level = s.level ∧ t.tick = s.tick ∧ t.pin = s.pin

/-- No run of the machine has a TICK after H1A (42_bootloader_handoff.md section 3): a trace without a reset that runs from a
state whose timer interrupt is masked holds no TICK line. -/
def Obligations.NoTickAfterMask : Prop :=
  ∀ (ls : List TraceLine) (s t : State), s.timerIe = false → (∀ p, TraceLine.reset p ∉ ls) →
    runTrace ls s = .next t → TraceLine.tick ∉ ls ∧ t.pin = s.pin ∧ t.tick = s.tick

/-! ### The machine as a whole -/

/-- Each operation writes only its own state (10_state.md sections 2, 3 and 5): LEVEL by SET_LEVEL, TICK and PIN by TICK,
MODE by ENTER_BOOTLOADER and H4, each enable by its hand-off step, HLOG by hand-off steps, the host processor's pc by H4,
space OUT and what is handed back by GET_REPORT; none touches the agents' list. -/
def Obligations.EachOperationWritesItsOwn : Prop :=
  ∀ (i : Instr) (s t : State), exec i s = .next t →
    ((∀ m0 m1 lvl b3 b4 b5 b6 b7, i ≠ .setLevel m0 m1 lvl b3 b4 b5 b6 b7) → t.level = s.level) ∧
    (i ≠ .tick → t.tick = s.tick ∧ t.pin = s.pin ∧ t.pinDriven = s.pinDriven) ∧
    ((∀ b2 b3 b4 b5 b6 b7, i ≠ .enterBootloader b2 b3 b4 b5 b6 b7) → i ≠ .h4 → t.mode = s.mode) ∧
    (i ≠ .h1a → t.timerIe = s.timerIe) ∧ (i ≠ .h1b → t.timerRun = s.timerRun) ∧
    (i ≠ .h2 → t.chanAttached = s.chanAttached) ∧ (i ≠ .h3 → t.gie = s.gie) ∧
    (handoffIndex i = none → t.hlog = s.hlog) ∧ (i ≠ .h4 → t.hostPc = s.hostPc) ∧
    (i ≠ .getReport → t.returns = s.returns ∧ ∀ a, memRead t.outBuf a = memRead s.outBuf a) ∧
    t.inputs = s.inputs

/-- MODE only moves forward and the enables only fall, but for a reset (10_state.md section 3, 42_bootloader_handoff.md
section 1): Running is left only by a delivered report with the magic prefix, and Transferred is entered only from
Quiescing. -/
def Obligations.ModeMovesForwardEnablesFall : Prop :=
  ∀ s t : State, step s = .next t → notReset (nextEvent s) = true →
    s.mode.rank ≤ t.mode.rank ∧ t.mode.rank ≤ s.mode.rank + 1 ∧
    (s.mode = .running → t.mode ≠ .running →
      ∃ b2 b3 b4 b5 b6 b7, nextEvent s = .deliver [0xAA, 0xBB, b2, b3, b4, b5, b6, b7]) ∧
    (t.timerIe = true → s.timerIe = true) ∧ (t.timerRun = true → s.timerRun = true) ∧
    (t.chanAttached = true → s.chanAttached = true) ∧ (t.gie = true → s.gie = true)

/-- The reset event gives every element its reset value from any state, PIN the value the event carries, and leaves the
agents' later events (70_reset_and_hazards.md section 1, 10_state.md section 5; TICK, MODE and the enables are the spec's
decisions D4 and D6; PIN_RESET is open, log 4; what is kept beside the nine elements is the model's, log 20). -/
def Obligations.ResetGivesResetValues : Prop :=
  ∀ (s : State) (p : Bool) (rest : List Event), s.inputs = .reset p :: rest →
    ∃ t, step s = .next t ∧ t.level.toNat = 0 ∧ t.tick.toNat = 0 ∧ t.pin = p ∧ t.pinObserved = none ∧
      t.mode = .running ∧ t.timerIe = true ∧ t.timerRun = true ∧ t.chanAttached = true ∧ t.gie = true ∧
      t.hlog = [] ∧ t.hostPc = none ∧ t.outBuf = [] ∧ t.returns = [] ∧ t.inputs = rest

/-- With no report at all the block ticks with LEVEL = 0 and PIN = 0 for ever (70_reset_and_hazards.md section 1, the spec's
derivation; that the timer ticks when nothing is listed is the model's choice, log 2), whatever PIN_RESET is. -/
def Obligations.ResetTicksInTheDark : Prop :=
  ∀ (p : Bool) (n : Nat), ∃ t, runSteps n (State.resetWith p) = .next t ∧ t.level.toNat = 0 ∧
    t.tick.toNat = n % 16 ∧ t.mode = .running ∧ (1 ≤ n → t.pinObserved = some false)

/-- After a reset the pin is not seen ON before a boundary tick has read a level above 0 (70_reset_and_hazards.md section 1):
in any run at all whose last state shows it ON, some earlier step was such a tick; and ordinary events go through with the
pin not seen ON for the first 15 ticks, whatever is set, and for ever while no level above 0 is asked for. What the observer
sees of PIN is the model's (log 5). -/
def Obligations.DarkUntilLevelAndBoundary : Prop :=
  (∀ (p : Bool) (es : List Event) (n : Nat) (t : State),
    runSteps n { State.resetWith p with inputs := es } = .next t → t.pinObserved = some true →
    ∃ m u, m < n ∧ runSteps m { State.resetWith p with inputs := es } = .next u ∧ nextEvent u = .timer ∧
      u.tickEnabled = true ∧ u.tick.toNat = 15 ∧ 0 < u.level.toNat) ∧
  (∀ (p : Bool) (es : List Event), es.all ordinaryEvent = true →
    (timerCount es ≤ 15 ∨ ∀ buf, Event.deliver buf ∈ es → requestedLevel buf = none ∨ requestedLevel buf = some 0) →
    ∃ t, runEvents es (State.resetWith p) = .next t ∧ t.pinObserved ≠ some true)

/-- The state after reset is in the invariant, whatever PIN_RESET is and whatever the agents do next. -/
def Obligations.InvariantAtReset : Prop :=
  ∀ (p : Bool) (es : List Event), StateInv { State.resetWith p with inputs := es }

/-- Every step keeps the invariant (10_state.md section 5 and 42_bootloader_handoff.md): the log is the start of a hand-off in
order and says how far the enables, MODE and the host processor's pc have come; space OUT keeps its canonical form. -/
def Obligations.InvariantKeptByStep : Prop :=
  ∀ s t : State, StateInv s → step s = .next t → StateInv t

/-- The spec's own invariants (10_state.md section 5) hold in every state that any run from reset reaches, for every
PIN_RESET and every list of events. -/
def Obligations.SpecInvariantsHoldInEveryRun : Prop :=
  ∀ (p : Bool) (es : List Event) (n : Nat) (t : State),
    runSteps n { State.resetWith p with inputs := es } = .next t → RuleR24 t

/-- The host learns nothing of LEVEL, TICK or PIN (41_report_commands.md section 4): two blocks that differ in these alone
give the same outcome but for these at every step of every run, in particular the same reports, statuses and log. -/
def Obligations.HostLearnsNothingOfPwm : Prop :=
  ∀ (n : Nat) (s s' t : State), sameToHost s s' → runSteps n s = .next t →
    ∃ t', runSteps n s' = .next t' ∧ sameToHost t t'

/-- The order of a TICK against a foreground operation is visible only for SET_LEVEL and H1A (60_exceptions.md section 2): in a
state of the invariant, for every other operation, the two orders are possible together and end in the same state. -/
def Obligations.TickCommutesWithOtherOperations : Prop :=
  ∀ (s u : State) (i : Instr), StateInv s → i ≠ .h1a →
    (∀ m0 m1 lvl b3 b4 b5 b6 b7, i ≠ .setLevel m0 m1 lvl b3 b4 b5 b6 b7) →
    ((∃ t, exec .tick s = .next t ∧ exec i t = .next u) ↔ (∃ v, exec i s = .next v ∧ exec .tick v = .next u))

/-- A trace of R61 that runs is what the machine does when its agents cause the trace's events in that order
(00_scope.md section 6, 30_encoding.md section 6; the agents' list is the model's, log 1). -/
def Obligations.TraceRunsAreMachineRuns : Prop :=
  ∀ (ls : List TraceLine) (s t : State), StateInv s → s.inputs = [] → runTrace ls s = .next t →
    runEvents (ls.map TraceLine.event) s = .next t

/-! ### The pin, step by step -/

/-- The pin comes to be seen ON only in one way: a step that makes it so is a TICK at the boundary that reads a LEVEL above 0
(70_reset_and_hazards.md section 1, 40_pwm_tick.md section 2). Every other step, a reset with PIN_RESET ON among them, leaves it
unseen. What the observer sees of PIN is the model's (log 5). -/
def Obligations.PinSeenOnOnlyByLitBoundary : Prop :=
  ∀ s t : State, step s = .next t → s.pinObserved ≠ some true → t.pinObserved = some true →
    nextEvent s = .timer ∧ s.tickEnabled = true ∧ s.tick.toNat = 15 ∧ 0 < s.level.toNat ∧ t.tick.toNat = 0

/-! ### Endless runs and fairness -/

/-- The tick is not starved (70_reset_and_hazards.md section 3, (i)): a fair endless run that stays in MODE = Running holds
infinitely many TICK steps, whatever the host and the foreground do between them. The form of endless runs and of fairness is
the model's (log 29). -/
def Obligations.FairRunsTickForEver : Prop :=
  ∀ (s : State) (ev : Nat → Event), StateInv s → Fair s ev →
    (∀ n, ∃ t, runStream ev n s = .next t ∧ t.mode = .running) →
    ∀ n, ∃ m t u, n ≤ m ∧ runStream ev m s = .next t ∧ exec .tick t = .next u ∧ runStream ev (m + 1) s = .next u

/-- The foreground is not starved (70_reset_and_hazards.md section 3, (ii)): a fair run without a reset that has reached
Quiescing reaches Transferred after finitely many more steps, whatever ticks and reports are raised meanwhile, with the whole
log and LEVEL kept. The form of endless runs and of fairness is the model's (log 29). -/
def Obligations.FairRunsCompleteTheHandoff : Prop :=
  ∀ (s t : State) (ev : Nat → Event) (k : Nat), StateInv s → Fair s ev → (∀ n, notReset (ev n) = true) →
    runStream ev k s = .next t → t.mode = .quiescing →
    ∃ n u, k < n ∧ runStream ev n s = .next u ∧ u.mode = .transferred ∧ u.hlog = handoffLog ∧ u.level = t.level

/-- Nothing is assumed of the host (70_reset_and_hazards.md section 3, (iii)). From a running block every stream of ordinary
events in which the timer's come again and again is a fair endless run in which each event is one step, LEVEL is always the
last level asked for, and the block stays ready: with no report ever, with one now and then, or with any number between two
ticks. And from any state of the invariant every stream without a reset or a long buffer in which the timer and the
foreground come again and again, magic reports anywhere in it, is fair and never stops short of the transfer. The form of
endless runs and of fairness is the model's (log 29); long buffers are refused (log 12). -/
def Obligations.HostIsFreeInFairRuns : Prop :=
  (∀ (s : State) (ev : Nat → Event), Ready s → (∀ n, ordinaryEvent (ev n) = true) → Recurs ev .timer →
    Fair s ev ∧ ∀ n, ∃ t, runStream ev n s = .next t ∧ Ready t ∧
      t.level.toNat = levelAfter s.level.toNat ((List.range n).map ev)) ∧
  (∀ (s : State) (ev : Nat → Event), StateInv s → (∀ n, notReset (ev n) = true) →
    (∀ n buf, ev n = .deliver buf → buf.length ≤ 8) → Recurs ev .timer → Recurs ev .foreground →
    Fair s ev ∧ ∀ n, ∃ m t, m ≤ n ∧ runStream ev m s = .next t ∧ (m = n ∨ t.mode = .transferred))
end

