-- ==== Sys2Proof/Laws/Decode.lean ====
section
/-! SUPPORT. What decoding a buffer can answer, by the buffer's length (R35, R90). -/

namespace Sys2Proof

/-- A list of eight bytes, named byte by byte. -/
theorem eight_of_length {buf : List Byte} (h : buf.length = 8) :
    ∃ b0 b1 b2 b3 b4 b5 b6 b7, buf = [b0, b1, b2, b3, b4, b5, b6, b7] := by
  match buf, h with
  | [b0, b1, b2, b3, b4, b5, b6, b7], _ => exact ⟨b0, b1, b2, b3, b4, b5, b6, b7, rfl⟩

/-- A buffer of another length is rejected by name, short or long. -/
theorem decode_of_length_ne {buf : List Byte} (h : buf.length ≠ 8) :
    decode buf = if buf.length < 8 then .error .short else .error .long := by
  unfold decode
  split
  · exact absurd rfl h
  · rfl

theorem decode_short {buf : List Byte} (h : buf.length < 8) : decode buf = .error .short := by
  simp [decode_of_length_ne (Nat.ne_of_lt h), h]

theorem decode_long {buf : List Byte} (h : 8 < buf.length) : decode buf = .error .long := by
  simp [decode_of_length_ne (Nat.ne_of_gt h), Nat.not_lt.2 h.le]

theorem decode_eq_short {buf : List Byte} (h : decode buf = .error .short) : buf.length < 8 := by
  rcases Nat.lt_trichotomy buf.length 8 with hl | hl | hl
  · exact hl
  · obtain ⟨b0, b1, b2, b3, b4, b5, b6, b7, rfl⟩ := eight_of_length hl
    cases h
  · rw [decode_long hl] at h
    cases h

theorem decode_eq_long {buf : List Byte} (h : decode buf = .error .long) : 8 < buf.length := by
  rcases Nat.lt_trichotomy buf.length 8 with hl | hl | hl
  · rw [decode_short hl] at h
    cases h
  · obtain ⟨b0, b1, b2, b3, b4, b5, b6, b7, rfl⟩ := eight_of_length hl
    cases h
  · exact hl

/-- A buffer decodes to a command exactly when it has eight bytes, and the command is then that of the report. -/
theorem decode_eq_ok {buf : List Byte} {i : Instr} (h : decode buf = .ok i) :
    ∃ b0 b1 b2 b3 b4 b5 b6 b7, buf = [b0, b1, b2, b3, b4, b5, b6, b7] ∧
      i = decodeReport b0 b1 b2 b3 b4 b5 b6 b7 := by
  by_cases hl : buf.length = 8
  · obtain ⟨b0, b1, b2, b3, b4, b5, b6, b7, rfl⟩ := eight_of_length hl
    refine ⟨b0, b1, b2, b3, b4, b5, b6, b7, rfl, ?_⟩
    injection h with h
    exact h.symm
  · rw [decode_of_length_ne hl] at h
    split at h <;> cases h

theorem isMagic_iff (a b : Byte) : isMagic a b = true ↔ a = 0xAA ∧ b = 0xBB := by
  simp [isMagic, Config.magic0, Config.magic1]

end Sys2Proof
end

