-- ==== Sys2Proof/Laws/Memory.lean ====
section
/-! SUPPORT. Byte accesses: read after write, and the canonical form kept by every memory operation. -/

namespace Sys2Proof.Machine

theorem Memory.lookup_insert_same (m : Memory) (a : Nat) (v : Byte) :
    Memory.lookup (Memory.insert m a v) a = some v := by
  induction m with
  | nil => simp [Memory.insert, Memory.lookup]
  | cons c m ih =>
    obtain ⟨b, w⟩ := c
    simp only [Memory.insert]
    split
    · simp [Memory.lookup]
    · split
      · simp [Memory.lookup]
      · rename_i hne
        simp [Memory.lookup, hne, ih]

theorem Memory.lookup_insert_other (m : Memory) {a b : Nat} (v : Byte) (h : b ≠ a) :
    Memory.lookup (Memory.insert m a v) b = Memory.lookup m b := by
  induction m with
  | nil => simp [Memory.insert, Memory.lookup, h]
  | cons c m ih =>
    obtain ⟨d, w⟩ := c
    simp only [Memory.insert]
    split
    · simp [Memory.lookup, h]
    · split
      · rename_i hd
        subst hd
        simp [Memory.lookup, h]
      · simp [Memory.lookup, ih]

/-- Every address of `m` with a byte inserted is `a` or an address of `m`. -/
theorem Memory.mem_insert_addr (m : Memory) (a : Nat) (v : Byte) {c : Host.Cell} (h : c ∈ Memory.insert m a v) :
    c.1 = a ∨ c ∈ m := by
  induction m with
  | nil => simp [Memory.insert] at h; simp [h]
  | cons d m ih =>
    obtain ⟨b, w⟩ := d
    simp only [Memory.insert] at h
    split at h
    · rcases List.mem_cons.1 h with rfl | h'
      · exact .inl rfl
      · exact .inr h'
    · split at h
      · rcases List.mem_cons.1 h with rfl | h'
        · exact .inl rfl
        · exact .inr (List.mem_cons_of_mem _ h')
      · rcases List.mem_cons.1 h with rfl | h'
        · exact .inr (List.mem_cons_self ..)
        · exact (ih h').imp id (List.mem_cons_of_mem _)

theorem Memory.wf_cons (b : Nat) (w : Byte) (m : Memory) :
    Memory.wf ((b, w) :: m) = true ↔ b < Config.reportSize ∧ (∀ c ∈ m, b < c.1) ∧ Memory.wf m = true := by
  simp [Memory.wf, and_assoc]

theorem Memory.insert_wf (m : Memory) {a : Nat} (v : Byte) (ha : a < Config.reportSize) (h : Memory.wf m = true) :
    Memory.wf (Memory.insert m a v) = true := by
  induction m with
  | nil => simp [Memory.insert, Memory.wf, ha]
  | cons d m ih =>
    obtain ⟨b, w⟩ := d
    obtain ⟨hb, hlt, hm⟩ := (Memory.wf_cons b w m).1 h
    simp only [Memory.insert]
    split
    · rename_i hab
      refine (Memory.wf_cons ..).2 ⟨ha, fun c hc => ?_, h⟩
      rcases List.mem_cons.1 hc with rfl | hc
      · exact hab
      · exact hab.trans (hlt c hc)
    · split
      · rename_i hab
        subst hab
        exact (Memory.wf_cons ..).2 ⟨ha, hlt, hm⟩
      · refine (Memory.wf_cons ..).2 ⟨hb, fun c hc => ?_, ih hm⟩
        rcases Memory.mem_insert_addr m a v hc with h' | h'
        · omega
        · exact hlt c h'

/-- What a byte write can do: it succeeds exactly at an existing address, and then keeps the canonical form. -/
theorem memWrite_ok {m m' : Memory} {a : Nat} {v : Byte} (h : memWrite m a v = .ok m') :
    a < Config.reportSize ∧ m' = Memory.insert m a v ∧ (Memory.wf m = true → Memory.wf m' = true) := by
  unfold memWrite at h
  split at h
  · rename_i ha
    cases h
    exact ⟨ha, rfl, Memory.insert_wf m v ha⟩
  · cases h

theorem memRead_memWrite_same {m m' : Memory} {a : Nat} {v : Byte} (h : memWrite m a v = .ok m') :
    memRead m' a = .ok v := by
  obtain ⟨ha, rfl, -⟩ := memWrite_ok h
  simp [memRead, ha, Memory.lookup_insert_same]

theorem memRead_memWrite_other {m m' : Memory} {a b : Nat} {v : Byte} (h : memWrite m a v = .ok m') (hb : b ≠ a) :
    memRead m' b = memRead m b := by
  obtain ⟨-, rfl, -⟩ := memWrite_ok h
  simp [memRead, Memory.lookup_insert_other m v hb]

theorem memWriteAll_wf (vs : List Byte) : ∀ (m m' : Memory) (a : Nat),
    memWriteAll m a vs = .ok m' → Memory.wf m = true → Memory.wf m' = true := by
  induction vs with
  | nil => intro m m' a h hw; cases h; exact hw
  | cons v vs ih =>
    intro m m' a h hw
    simp only [memWriteAll] at h
    split at h
    · rename_i m1 h1
      exact ih _ _ _ h ((memWrite_ok h1).2.2 hw)
    · cases h

/-- Space OUT after GET_REPORT (R59): the eight bytes of the status report. -/
def statusOut : Memory := [(0, 0), (1, 1), (2, 2), (3, 3), (4, 0), (5, 0), (6, 0), (7, 0)]

theorem memWriteAll_status : memWriteAll [] 0 Config.statusReport = .ok statusOut := by rfl

theorem statusOut_wf : Memory.wf statusOut = true := by decide

theorem reset_memory_wf (p : Bool) : Memory.wf (State.resetWith p).outBuf = true := rfl

end Sys2Proof.Machine
end

