-- ==== Sys2Proof/Laws/State.lean ====
section
/-! SUPPORT. One lemma per field per named update of State, each by rfl, so that no later proof unfolds an update. -/

namespace Sys2Proof.Machine

variable (s : State)

/-! ### writeLevel -/

@[simp] theorem State.writeLevel_level (v : Nibble) : (s.writeLevel v).level = v := rfl
@[simp] theorem State.writeLevel_tick (v : Nibble) : (s.writeLevel v).tick = s.tick := rfl
@[simp] theorem State.writeLevel_pin (v : Nibble) : (s.writeLevel v).pin = s.pin := rfl
@[simp] theorem State.writeLevel_mode (v : Nibble) : (s.writeLevel v).mode = s.mode := rfl
@[simp] theorem State.writeLevel_timerIe (v : Nibble) : (s.writeLevel v).timerIe = s.timerIe := rfl
@[simp] theorem State.writeLevel_timerRun (v : Nibble) : (s.writeLevel v).timerRun = s.timerRun := rfl
@[simp] theorem State.writeLevel_chanAttached (v : Nibble) : (s.writeLevel v).chanAttached = s.chanAttached := rfl
@[simp] theorem State.writeLevel_gie (v : Nibble) : (s.writeLevel v).gie = s.gie := rfl
@[simp] theorem State.writeLevel_hlog (v : Nibble) : (s.writeLevel v).hlog = s.hlog := rfl
@[simp] theorem State.writeLevel_pinDriven (v : Nibble) : (s.writeLevel v).pinDriven = s.pinDriven := rfl
@[simp] theorem State.writeLevel_hostPc (v : Nibble) : (s.writeLevel v).hostPc = s.hostPc := rfl
@[simp] theorem State.writeLevel_outBuf (v : Nibble) : (s.writeLevel v).outBuf = s.outBuf := rfl
@[simp] theorem State.writeLevel_returns (v : Nibble) : (s.writeLevel v).returns = s.returns := rfl
@[simp] theorem State.writeLevel_inputs (v : Nibble) : (s.writeLevel v).inputs = s.inputs := rfl

/-! ### writeTick -/

@[simp] theorem State.writeTick_level (v : Nibble) : (s.writeTick v).level = s.level := rfl
@[simp] theorem State.writeTick_tick (v : Nibble) : (s.writeTick v).tick = v := rfl
@[simp] theorem State.writeTick_pin (v : Nibble) : (s.writeTick v).pin = s.pin := rfl
@[simp] theorem State.writeTick_mode (v : Nibble) : (s.writeTick v).mode = s.mode := rfl
@[simp] theorem State.writeTick_timerIe (v : Nibble) : (s.writeTick v).timerIe = s.timerIe := rfl
@[simp] theorem State.writeTick_timerRun (v : Nibble) : (s.writeTick v).timerRun = s.timerRun := rfl
@[simp] theorem State.writeTick_chanAttached (v : Nibble) : (s.writeTick v).chanAttached = s.chanAttached := rfl
@[simp] theorem State.writeTick_gie (v : Nibble) : (s.writeTick v).gie = s.gie := rfl
@[simp] theorem State.writeTick_hlog (v : Nibble) : (s.writeTick v).hlog = s.hlog := rfl
@[simp] theorem State.writeTick_pinDriven (v : Nibble) : (s.writeTick v).pinDriven = s.pinDriven := rfl
@[simp] theorem State.writeTick_hostPc (v : Nibble) : (s.writeTick v).hostPc = s.hostPc := rfl
@[simp] theorem State.writeTick_outBuf (v : Nibble) : (s.writeTick v).outBuf = s.outBuf := rfl
@[simp] theorem State.writeTick_returns (v : Nibble) : (s.writeTick v).returns = s.returns := rfl
@[simp] theorem State.writeTick_inputs (v : Nibble) : (s.writeTick v).inputs = s.inputs := rfl

/-! ### writePin -/

@[simp] theorem State.writePin_level (v : Bool) : (s.writePin v).level = s.level := rfl
@[simp] theorem State.writePin_tick (v : Bool) : (s.writePin v).tick = s.tick := rfl
@[simp] theorem State.writePin_pin (v : Bool) : (s.writePin v).pin = v := rfl
@[simp] theorem State.writePin_mode (v : Bool) : (s.writePin v).mode = s.mode := rfl
@[simp] theorem State.writePin_timerIe (v : Bool) : (s.writePin v).timerIe = s.timerIe := rfl
@[simp] theorem State.writePin_timerRun (v : Bool) : (s.writePin v).timerRun = s.timerRun := rfl
@[simp] theorem State.writePin_chanAttached (v : Bool) : (s.writePin v).chanAttached = s.chanAttached := rfl
@[simp] theorem State.writePin_gie (v : Bool) : (s.writePin v).gie = s.gie := rfl
@[simp] theorem State.writePin_hlog (v : Bool) : (s.writePin v).hlog = s.hlog := rfl
@[simp] theorem State.writePin_pinDriven (v : Bool) : (s.writePin v).pinDriven = true := rfl
@[simp] theorem State.writePin_hostPc (v : Bool) : (s.writePin v).hostPc = s.hostPc := rfl
@[simp] theorem State.writePin_outBuf (v : Bool) : (s.writePin v).outBuf = s.outBuf := rfl
@[simp] theorem State.writePin_returns (v : Bool) : (s.writePin v).returns = s.returns := rfl
@[simp] theorem State.writePin_inputs (v : Bool) : (s.writePin v).inputs = s.inputs := rfl

/-! ### writeMode -/

@[simp] theorem State.writeMode_level (m : Mode) : (s.writeMode m).level = s.level := rfl
@[simp] theorem State.writeMode_tick (m : Mode) : (s.writeMode m).tick = s.tick := rfl
@[simp] theorem State.writeMode_pin (m : Mode) : (s.writeMode m).pin = s.pin := rfl
@[simp] theorem State.writeMode_mode (m : Mode) : (s.writeMode m).mode = m := rfl
@[simp] theorem State.writeMode_timerIe (m : Mode) : (s.writeMode m).timerIe = s.timerIe := rfl
@[simp] theorem State.writeMode_timerRun (m : Mode) : (s.writeMode m).timerRun = s.timerRun := rfl
@[simp] theorem State.writeMode_chanAttached (m : Mode) : (s.writeMode m).chanAttached = s.chanAttached := rfl
@[simp] theorem State.writeMode_gie (m : Mode) : (s.writeMode m).gie = s.gie := rfl
@[simp] theorem State.writeMode_hlog (m : Mode) : (s.writeMode m).hlog = s.hlog := rfl
@[simp] theorem State.writeMode_pinDriven (m : Mode) : (s.writeMode m).pinDriven = s.pinDriven := rfl
@[simp] theorem State.writeMode_hostPc (m : Mode) : (s.writeMode m).hostPc = s.hostPc := rfl
@[simp] theorem State.writeMode_outBuf (m : Mode) : (s.writeMode m).outBuf = s.outBuf := rfl
@[simp] theorem State.writeMode_returns (m : Mode) : (s.writeMode m).returns = s.returns := rfl
@[simp] theorem State.writeMode_inputs (m : Mode) : (s.writeMode m).inputs = s.inputs := rfl

/-! ### maskTimer -/

@[simp] theorem State.maskTimer_level : s.maskTimer.level = s.level := rfl
@[simp] theorem State.maskTimer_tick : s.maskTimer.tick = s.tick := rfl
@[simp] theorem State.maskTimer_pin : s.maskTimer.pin = s.pin := rfl
@[simp] theorem State.maskTimer_mode : s.maskTimer.mode = s.mode := rfl
@[simp] theorem State.maskTimer_timerIe : s.maskTimer.timerIe = false := rfl
@[simp] theorem State.maskTimer_timerRun : s.maskTimer.timerRun = s.timerRun := rfl
@[simp] theorem State.maskTimer_chanAttached : s.maskTimer.chanAttached = s.chanAttached := rfl
@[simp] theorem State.maskTimer_gie : s.maskTimer.gie = s.gie := rfl
@[simp] theorem State.maskTimer_hlog : s.maskTimer.hlog = s.hlog := rfl
@[simp] theorem State.maskTimer_pinDriven : s.maskTimer.pinDriven = s.pinDriven := rfl
@[simp] theorem State.maskTimer_hostPc : s.maskTimer.hostPc = s.hostPc := rfl
@[simp] theorem State.maskTimer_outBuf : s.maskTimer.outBuf = s.outBuf := rfl
@[simp] theorem State.maskTimer_returns : s.maskTimer.returns = s.returns := rfl
@[simp] theorem State.maskTimer_inputs : s.maskTimer.inputs = s.inputs := rfl

/-! ### stopTimer -/

@[simp] theorem State.stopTimer_level : s.stopTimer.level = s.level := rfl
@[simp] theorem State.stopTimer_tick : s.stopTimer.tick = s.tick := rfl
@[simp] theorem State.stopTimer_pin : s.stopTimer.pin = s.pin := rfl
@[simp] theorem State.stopTimer_mode : s.stopTimer.mode = s.mode := rfl
@[simp] theorem State.stopTimer_timerIe : s.stopTimer.timerIe = s.timerIe := rfl
@[simp] theorem State.stopTimer_timerRun : s.stopTimer.timerRun = false := rfl
@[simp] theorem State.stopTimer_chanAttached : s.stopTimer.chanAttached = s.chanAttached := rfl
@[simp] theorem State.stopTimer_gie : s.stopTimer.gie = s.gie := rfl
@[simp] theorem State.stopTimer_hlog : s.stopTimer.hlog = s.hlog := rfl
@[simp] theorem State.stopTimer_pinDriven : s.stopTimer.pinDriven = s.pinDriven := rfl
@[simp] theorem State.stopTimer_hostPc : s.stopTimer.hostPc = s.hostPc := rfl
@[simp] theorem State.stopTimer_outBuf : s.stopTimer.outBuf = s.outBuf := rfl
@[simp] theorem State.stopTimer_returns : s.stopTimer.returns = s.returns := rfl
@[simp] theorem State.stopTimer_inputs : s.stopTimer.inputs = s.inputs := rfl

/-! ### detachChannel -/

@[simp] theorem State.detachChannel_level : s.detachChannel.level = s.level := rfl
@[simp] theorem State.detachChannel_tick : s.detachChannel.tick = s.tick := rfl
@[simp] theorem State.detachChannel_pin : s.detachChannel.pin = s.pin := rfl
@[simp] theorem State.detachChannel_mode : s.detachChannel.mode = s.mode := rfl
@[simp] theorem State.detachChannel_timerIe : s.detachChannel.timerIe = s.timerIe := rfl
@[simp] theorem State.detachChannel_timerRun : s.detachChannel.timerRun = s.timerRun := rfl
@[simp] theorem State.detachChannel_chanAttached : s.detachChannel.chanAttached = false := rfl
@[simp] theorem State.detachChannel_gie : s.detachChannel.gie = s.gie := rfl
@[simp] theorem State.detachChannel_hlog : s.detachChannel.hlog = s.hlog := rfl
@[simp] theorem State.detachChannel_pinDriven : s.detachChannel.pinDriven = s.pinDriven := rfl
@[simp] theorem State.detachChannel_hostPc : s.detachChannel.hostPc = s.hostPc := rfl
@[simp] theorem State.detachChannel_outBuf : s.detachChannel.outBuf = s.outBuf := rfl
@[simp] theorem State.detachChannel_returns : s.detachChannel.returns = s.returns := rfl
@[simp] theorem State.detachChannel_inputs : s.detachChannel.inputs = s.inputs := rfl

/-! ### disableInterrupts -/

@[simp] theorem State.disableInterrupts_level : s.disableInterrupts.level = s.level := rfl
@[simp] theorem State.disableInterrupts_tick : s.disableInterrupts.tick = s.tick := rfl
@[simp] theorem State.disableInterrupts_pin : s.disableInterrupts.pin = s.pin := rfl
@[simp] theorem State.disableInterrupts_mode : s.disableInterrupts.mode = s.mode := rfl
@[simp] theorem State.disableInterrupts_timerIe : s.disableInterrupts.timerIe = s.timerIe := rfl
@[simp] theorem State.disableInterrupts_timerRun : s.disableInterrupts.timerRun = s.timerRun := rfl
@[simp] theorem State.disableInterrupts_chanAttached : s.disableInterrupts.chanAttached = s.chanAttached := rfl
@[simp] theorem State.disableInterrupts_gie : s.disableInterrupts.gie = false := rfl
@[simp] theorem State.disableInterrupts_hlog : s.disableInterrupts.hlog = s.hlog := rfl
@[simp] theorem State.disableInterrupts_pinDriven : s.disableInterrupts.pinDriven = s.pinDriven := rfl
@[simp] theorem State.disableInterrupts_hostPc : s.disableInterrupts.hostPc = s.hostPc := rfl
@[simp] theorem State.disableInterrupts_outBuf : s.disableInterrupts.outBuf = s.outBuf := rfl
@[simp] theorem State.disableInterrupts_returns : s.disableInterrupts.returns = s.returns := rfl
@[simp] theorem State.disableInterrupts_inputs : s.disableInterrupts.inputs = s.inputs := rfl

/-! ### writeHostPc -/

@[simp] theorem State.writeHostPc_level (a : Nat) : (s.writeHostPc a).level = s.level := rfl
@[simp] theorem State.writeHostPc_tick (a : Nat) : (s.writeHostPc a).tick = s.tick := rfl
@[simp] theorem State.writeHostPc_pin (a : Nat) : (s.writeHostPc a).pin = s.pin := rfl
@[simp] theorem State.writeHostPc_mode (a : Nat) : (s.writeHostPc a).mode = s.mode := rfl
@[simp] theorem State.writeHostPc_timerIe (a : Nat) : (s.writeHostPc a).timerIe = s.timerIe := rfl
@[simp] theorem State.writeHostPc_timerRun (a : Nat) : (s.writeHostPc a).timerRun = s.timerRun := rfl
@[simp] theorem State.writeHostPc_chanAttached (a : Nat) : (s.writeHostPc a).chanAttached = s.chanAttached := rfl
@[simp] theorem State.writeHostPc_gie (a : Nat) : (s.writeHostPc a).gie = s.gie := rfl
@[simp] theorem State.writeHostPc_hlog (a : Nat) : (s.writeHostPc a).hlog = s.hlog := rfl
@[simp] theorem State.writeHostPc_pinDriven (a : Nat) : (s.writeHostPc a).pinDriven = s.pinDriven := rfl
@[simp] theorem State.writeHostPc_hostPc (a : Nat) : (s.writeHostPc a).hostPc = some a := rfl
@[simp] theorem State.writeHostPc_outBuf (a : Nat) : (s.writeHostPc a).outBuf = s.outBuf := rfl
@[simp] theorem State.writeHostPc_returns (a : Nat) : (s.writeHostPc a).returns = s.returns := rfl
@[simp] theorem State.writeHostPc_inputs (a : Nat) : (s.writeHostPc a).inputs = s.inputs := rfl

/-! ### emit -/

@[simp] theorem State.emit_level (e : HandoffEvent) : (s.emit e).level = s.level := rfl
@[simp] theorem State.emit_tick (e : HandoffEvent) : (s.emit e).tick = s.tick := rfl
@[simp] theorem State.emit_pin (e : HandoffEvent) : (s.emit e).pin = s.pin := rfl
@[simp] theorem State.emit_mode (e : HandoffEvent) : (s.emit e).mode = s.mode := rfl
@[simp] theorem State.emit_timerIe (e : HandoffEvent) : (s.emit e).timerIe = s.timerIe := rfl
@[simp] theorem State.emit_timerRun (e : HandoffEvent) : (s.emit e).timerRun = s.timerRun := rfl
@[simp] theorem State.emit_chanAttached (e : HandoffEvent) : (s.emit e).chanAttached = s.chanAttached := rfl
@[simp] theorem State.emit_gie (e : HandoffEvent) : (s.emit e).gie = s.gie := rfl
@[simp] theorem State.emit_hlog (e : HandoffEvent) : (s.emit e).hlog = s.hlog ++ [e] := rfl
@[simp] theorem State.emit_pinDriven (e : HandoffEvent) : (s.emit e).pinDriven = s.pinDriven := rfl
@[simp] theorem State.emit_hostPc (e : HandoffEvent) : (s.emit e).hostPc = s.hostPc := rfl
@[simp] theorem State.emit_outBuf (e : HandoffEvent) : (s.emit e).outBuf = s.outBuf := rfl
@[simp] theorem State.emit_returns (e : HandoffEvent) : (s.emit e).returns = s.returns := rfl
@[simp] theorem State.emit_inputs (e : HandoffEvent) : (s.emit e).inputs = s.inputs := rfl

/-! ### giveBack -/

@[simp] theorem State.giveBack_level (r : Return) : (s.giveBack r).level = s.level := rfl
@[simp] theorem State.giveBack_tick (r : Return) : (s.giveBack r).tick = s.tick := rfl
@[simp] theorem State.giveBack_pin (r : Return) : (s.giveBack r).pin = s.pin := rfl
@[simp] theorem State.giveBack_mode (r : Return) : (s.giveBack r).mode = s.mode := rfl
@[simp] theorem State.giveBack_timerIe (r : Return) : (s.giveBack r).timerIe = s.timerIe := rfl
@[simp] theorem State.giveBack_timerRun (r : Return) : (s.giveBack r).timerRun = s.timerRun := rfl
@[simp] theorem State.giveBack_chanAttached (r : Return) : (s.giveBack r).chanAttached = s.chanAttached := rfl
@[simp] theorem State.giveBack_gie (r : Return) : (s.giveBack r).gie = s.gie := rfl
@[simp] theorem State.giveBack_hlog (r : Return) : (s.giveBack r).hlog = s.hlog := rfl
@[simp] theorem State.giveBack_pinDriven (r : Return) : (s.giveBack r).pinDriven = s.pinDriven := rfl
@[simp] theorem State.giveBack_hostPc (r : Return) : (s.giveBack r).hostPc = s.hostPc := rfl
@[simp] theorem State.giveBack_outBuf (r : Return) : (s.giveBack r).outBuf = s.outBuf := rfl
@[simp] theorem State.giveBack_returns (r : Return) : (s.giveBack r).returns = s.returns ++ [r] := rfl
@[simp] theorem State.giveBack_inputs (r : Return) : (s.giveBack r).inputs = s.inputs := rfl

/-! ### writeOut -/

@[simp] theorem State.writeOut_level (m : Memory) : (s.writeOut m).level = s.level := rfl
@[simp] theorem State.writeOut_tick (m : Memory) : (s.writeOut m).tick = s.tick := rfl
@[simp] theorem State.writeOut_pin (m : Memory) : (s.writeOut m).pin = s.pin := rfl
@[simp] theorem State.writeOut_mode (m : Memory) : (s.writeOut m).mode = s.mode := rfl
@[simp] theorem State.writeOut_timerIe (m : Memory) : (s.writeOut m).timerIe = s.timerIe := rfl
@[simp] theorem State.writeOut_timerRun (m : Memory) : (s.writeOut m).timerRun = s.timerRun := rfl
@[simp] theorem State.writeOut_chanAttached (m : Memory) : (s.writeOut m).chanAttached = s.chanAttached := rfl
@[simp] theorem State.writeOut_gie (m : Memory) : (s.writeOut m).gie = s.gie := rfl
@[simp] theorem State.writeOut_hlog (m : Memory) : (s.writeOut m).hlog = s.hlog := rfl
@[simp] theorem State.writeOut_pinDriven (m : Memory) : (s.writeOut m).pinDriven = s.pinDriven := rfl
@[simp] theorem State.writeOut_hostPc (m : Memory) : (s.writeOut m).hostPc = s.hostPc := rfl
@[simp] theorem State.writeOut_outBuf (m : Memory) : (s.writeOut m).outBuf = m := rfl
@[simp] theorem State.writeOut_returns (m : Memory) : (s.writeOut m).returns = s.returns := rfl
@[simp] theorem State.writeOut_inputs (m : Memory) : (s.writeOut m).inputs = s.inputs := rfl

/-! ### dropEvent -/

@[simp] theorem State.dropEvent_level : s.dropEvent.level = s.level := rfl
@[simp] theorem State.dropEvent_tick : s.dropEvent.tick = s.tick := rfl
@[simp] theorem State.dropEvent_pin : s.dropEvent.pin = s.pin := rfl
@[simp] theorem State.dropEvent_mode : s.dropEvent.mode = s.mode := rfl
@[simp] theorem State.dropEvent_timerIe : s.dropEvent.timerIe = s.timerIe := rfl
@[simp] theorem State.dropEvent_timerRun : s.dropEvent.timerRun = s.timerRun := rfl
@[simp] theorem State.dropEvent_chanAttached : s.dropEvent.chanAttached = s.chanAttached := rfl
@[simp] theorem State.dropEvent_gie : s.dropEvent.gie = s.gie := rfl
@[simp] theorem State.dropEvent_hlog : s.dropEvent.hlog = s.hlog := rfl
@[simp] theorem State.dropEvent_pinDriven : s.dropEvent.pinDriven = s.pinDriven := rfl
@[simp] theorem State.dropEvent_hostPc : s.dropEvent.hostPc = s.hostPc := rfl
@[simp] theorem State.dropEvent_outBuf : s.dropEvent.outBuf = s.outBuf := rfl
@[simp] theorem State.dropEvent_returns : s.dropEvent.returns = s.returns := rfl
@[simp] theorem State.dropEvent_inputs : s.dropEvent.inputs = s.inputs.tail := rfl

/-! ### the reset event -/

@[simp] theorem resetEvent_level (p : Bool) : (resetEvent p s).level = 0 := rfl
@[simp] theorem resetEvent_tick (p : Bool) : (resetEvent p s).tick = 0 := rfl
@[simp] theorem resetEvent_pin (p : Bool) : (resetEvent p s).pin = p := rfl
@[simp] theorem resetEvent_mode (p : Bool) : (resetEvent p s).mode = .running := rfl
@[simp] theorem resetEvent_timerIe (p : Bool) : (resetEvent p s).timerIe = true := rfl
@[simp] theorem resetEvent_timerRun (p : Bool) : (resetEvent p s).timerRun = true := rfl
@[simp] theorem resetEvent_chanAttached (p : Bool) : (resetEvent p s).chanAttached = true := rfl
@[simp] theorem resetEvent_gie (p : Bool) : (resetEvent p s).gie = true := rfl
@[simp] theorem resetEvent_hlog (p : Bool) : (resetEvent p s).hlog = [] := rfl
@[simp] theorem resetEvent_pinDriven (p : Bool) : (resetEvent p s).pinDriven = false := rfl
@[simp] theorem resetEvent_hostPc (p : Bool) : (resetEvent p s).hostPc = none := rfl
@[simp] theorem resetEvent_outBuf (p : Bool) : (resetEvent p s).outBuf = [] := rfl
@[simp] theorem resetEvent_returns (p : Bool) : (resetEvent p s).returns = [] := rfl
@[simp] theorem resetEvent_inputs (p : Bool) : (resetEvent p s).inputs = s.inputs := rfl

/-! ### the interrupt entry and return -/

@[simp] theorem tickEntry_eq : tickEntry s = s := rfl
@[simp] theorem tickReturn_eq : tickReturn s = s := rfl

end Sys2Proof.Machine
end

