-- ==== Sys2Proof/Laws/Ops.lean ====
section
/-! SUPPORT. One lemma per shared operation that says once all it can do, and one per instruction in the same form. -/

namespace Sys2Proof.Machine

/-! ### Operands and comparisons -/

/-- The saturation law of the operand (R56, R99). -/
theorem clampLevel_toNat (b : Byte) : (clampLevel b).toNat = min b.toNat 15 := by
  unfold clampLevel
  split
  · rename_i h
    have h15 : 15 ≤ b.toNat := h
    simp [Config.maxSteps, h15]
  · rename_i h
    have h15 : b.toNat < 15 := by simpa [Config.maxSteps] using h
    simp only [BitVec.extractLsb'_toNat, Nat.shiftRight_zero]
    omega

theorem atBoundary_tickNext (t : Nibble) : atBoundary (tickNext t) = decide (t.toNat = 15) := by
  revert t; decide

theorem aboveLevel_tickNext (t l : Nibble) (h : t.toNat ≠ 15) :
    aboveLevel (tickNext t) l = decide (l.toNat < t.toNat + 1) := by
  revert t l; decide

theorem truncate_tickNext (t : Nibble) : (tickNext t).truncate 4 = t + 1 := by
  revert t; decide

theorem levelAboveZero_eq (l : Nibble) : levelAboveZero l = decide (0 < l.toNat) := by
  revert l; decide

theorem nibble_succ_toNat (t : Nibble) : (t + 1).toNat = (t.toNat + 1) % 16 := by
  revert t; decide

/-! ### The handler of the tick interrupt -/

/-- All that a TICK does (R70, R73): the counter, PIN, and nothing else of the block. -/
theorem tickBody_eq (s : State) : tickBody s =
    { s with
      tick := s.tick + 1
      pin := if s.tick.toNat = 15 then decide (0 < s.level.toNat)
        else if s.level.toNat < s.tick.toNat + 1 then false else s.pin
      pinDriven := s.pinDriven || decide (s.tick.toNat = 15 ∨ s.level.toNat < s.tick.toNat + 1) } := by
  unfold tickBody
  simp only [atBoundary_tickNext, truncate_tickNext, levelAboveZero_eq]
  by_cases hb : s.tick.toNat = 15
  · have ht : s.tick + 1 = 0 := by
      apply BitVec.eq_of_toNat_eq
      rw [nibble_succ_toNat, hb]
      rfl
    simp only [hb, ht, State.writeTick, State.writePin]
    simp
  · simp only [hb, decide_false, Bool.false_eq_true, if_false, aboveLevel_tickNext s.tick s.level hb]
    by_cases hl : s.level.toNat < s.tick.toNat + 1 <;> simp [hl, State.writeTick, State.writePin]

/-! ### When operations occur -/

theorem State.tickEnabled_iff (s : State) :
    s.tickEnabled = true ↔ s.timerIe = true ∧ s.timerRun = true ∧ s.gie = true := by
  simp [State.tickEnabled, and_assoc]

theorem State.foregroundEnabled_iff (s : State) :
    s.foregroundEnabled = true ↔ s.mode = .running ∧ s.chanAttached = true := by
  simp [State.foregroundEnabled]

theorem takeTickInterrupt_next {f : State → State} {s t : State} :
    takeTickInterrupt f s = .next t ↔ s.tickEnabled = true ∧ t = f s := by
  unfold takeTickInterrupt
  by_cases h : s.tickEnabled = true <;> simp [h, @eq_comm _ t]

theorem whenForeground_next {o : Outcome} {s t : State} :
    whenForeground s o = .next t ↔ s.foregroundEnabled = true ∧ o = .next t := by
  unfold whenForeground
  by_cases h : s.foregroundEnabled = true <;> simp [h]

theorem handoffStep_next {before : List HandoffEvent} {e : HandoffEvent} {f : State → State} {s t : State} :
    handoffStep before e f s = .next t ↔ (s.mode = .quiescing ∧ s.hlog = before) ∧ t = (f s).emit e := by
  unfold handoffStep
  by_cases h : s.mode = .quiescing ∧ s.hlog = before
  · simp [h, @eq_comm _ t]
  · simp only [h, false_and, if_false, reduceCtorEq]

theorem nextHandoff_some {log : List HandoffEvent} {i : Instr} (h : nextHandoff log = some i) :
    ∃ k, handoffIndex i = some k ∧ log = handoffLog.take k := by
  unfold nextHandoff at h
  split at h
  · cases h; exact ⟨0, rfl, rfl⟩
  · cases h; exact ⟨1, rfl, rfl⟩
  · cases h; exact ⟨2, rfl, rfl⟩
  · cases h; exact ⟨3, rfl, rfl⟩
  · cases h; exact ⟨4, rfl, rfl⟩
  · cases h

/-! ### What each instruction can answer -/

theorem exec_setLevel_next {m0 m1 lvl b3 b4 b5 b6 b7 : Byte} {s t : State} :
    exec (.setLevel m0 m1 lvl b3 b4 b5 b6 b7) s = .next t ↔
      s.foregroundEnabled = true ∧ t = s.writeLevel (clampLevel lvl) := by
  simp [exec, execSetLevel, whenForeground_next, @eq_comm _ t]

theorem exec_enterBootloader_next {b2 b3 b4 b5 b6 b7 : Byte} {s t : State} :
    exec (.enterBootloader b2 b3 b4 b5 b6 b7) s = .next t ↔
      s.foregroundEnabled = true ∧ t = s.writeMode .quiescing := by
  simp [exec, execEnterBootloader, whenForeground_next, @eq_comm _ t]

theorem execGetReport_eq (s : State) :
    execGetReport s = whenForeground s (.next ((s.writeOut statusOut).giveBack (.report 8 false))) := by
  simp only [execGetReport, memWriteAll_status]
  rfl

theorem exec_getReport_next {s t : State} :
    exec .getReport s = .next t ↔
      s.foregroundEnabled = true ∧ t = (s.writeOut statusOut).giveBack (.report 8 false) := by
  simp [exec, execGetReport_eq, whenForeground_next, @eq_comm _ t]

theorem exec_tick_next {s t : State} : exec .tick s = .next t ↔ s.tickEnabled = true ∧ t = tickBody s := by
  simp [exec, execTick, takeTickInterrupt_next]

theorem exec_h1a_next {s t : State} : exec .h1a s = .next t ↔
    (s.mode = .quiescing ∧ s.hlog = []) ∧ t = s.maskTimer.emit .timerIrqMask := by
  simp [exec, execH1A, handoffStep_next]

theorem exec_h1b_next {s t : State} : exec .h1b s = .next t ↔
    (s.mode = .quiescing ∧ s.hlog = [.timerIrqMask]) ∧ t = s.stopTimer.emit .timerClockStop := by
  simp [exec, execH1B, handoffStep_next]

theorem exec_h2_next {s t : State} : exec .h2 s = .next t ↔
    (s.mode = .quiescing ∧ s.hlog = [.timerIrqMask, .timerClockStop]) ∧ t = s.detachChannel.emit .channelDetach := by
  simp [exec, execH2, handoffStep_next]

theorem exec_h3_next {s t : State} : exec .h3 s = .next t ↔
    (s.mode = .quiescing ∧ s.hlog = [.timerIrqMask, .timerClockStop, .channelDetach]) ∧
      t = s.disableInterrupts.emit .globalIrqDisable := by
  simp [exec, execH3, handoffStep_next]

theorem exec_h4_next {s t : State} : exec .h4 s = .next t ↔
    (s.mode = .quiescing ∧ s.hlog = [.timerIrqMask, .timerClockStop, .channelDetach, .globalIrqDisable]) ∧
      t = ((s.writeMode .transferred).writeHostPc Config.bootEntry).emit (.transferControl Config.bootEntry) := by
  simp [exec, execH4, handoffStep_next, transferControl]

end Sys2Proof.Machine
end

