-- ==== Sys2Proof/Laws/PerInstr.lean ====
section
/-! SUPPORT. The family `EncodedLength`: an operation that has an encoding is encoded in one report of 8 bytes, the one
length there is (R50). One lemma per constructor of Instr. -/

namespace Sys2Proof.Laws.EncodedLength

/-- Every encoding of `i` is 8 bytes long. -/
def Statement (i : Instr) : Prop := ∀ buf, encode i = some buf → buf.length = 8

theorem enterBootloader (b2 b3 b4 b5 b6 b7 : Byte) : Statement (.enterBootloader b2 b3 b4 b5 b6 b7) := by
  rintro _ ⟨⟩; rfl

theorem setLevel (m0 m1 lvl b3 b4 b5 b6 b7 : Byte) : Statement (.setLevel m0 m1 lvl b3 b4 b5 b6 b7) := by
  rintro _ ⟨⟩; rfl

theorem tick : Statement .tick := by rintro _ ⟨⟩

theorem getReport : Statement .getReport := by rintro _ ⟨⟩

theorem h1a : Statement .h1a := by rintro _ ⟨⟩

theorem h1b : Statement .h1b := by rintro _ ⟨⟩

theorem h2 : Statement .h2 := by rintro _ ⟨⟩

theorem h3 : Statement .h3 := by rintro _ ⟨⟩

theorem h4 : Statement .h4 := by rintro _ ⟨⟩

end Sys2Proof.Laws.EncodedLength
end

