-- ==== Sys2Proof/Laws/Step.lean ====
section
/-! SUPPORT. What one step can answer: every next state of `step` is one of the cases below, and each case names the event
it came from. Later proofs cite `step_next` and unfold nothing. -/

namespace Sys2Proof.Machine

@[simp] theorem nextEvent_cons (s : State) (e : Event) (es : List Event) (h : s.inputs = e :: es) :
    nextEvent s = e := by simp [nextEvent, h]

theorem deliver_next {buf : List Byte} {s t : State} (h : deliver buf s = .next t) :
    (∃ i, decode buf = .ok i ∧ exec i s = .next t) ∨ (buf.length < 8 ∧ t = s.giveBack .rejected) := by
  unfold deliver at h
  split at h
  · rename_i i hi
    exact .inl ⟨i, hi, h⟩
  · rename_i he
    cases h
    exact .inr ⟨decode_eq_short he, rfl⟩
  · cases h

theorem foregroundTurn_next {s t : State} (h : foregroundTurn s = .next t) :
    (s.mode = .quiescing ∧ ∃ i, nextHandoff s.hlog = some i ∧ exec i s = .next t) ∨ (s.mode ≠ .quiescing ∧ t = s) := by
  unfold foregroundTurn at h
  split at h
  · rename_i hq
    split at h
    · rename_i i hi
      exact .inl ⟨hq, i, hi, h⟩
    · cases h
  · rename_i hq
    cases h
    exact .inr ⟨hq, rfl⟩

/-- How a step from `s`, whose event has been dropped, reaches `t`. -/
inductive StepCase (e : Event) (s t : State) : Prop where
  /-- The reset event. -/
  | reset (p : Bool) (he : e = .reset p) (ht : t = resetEvent p s)
  /-- The tick interrupt is taken. -/
  | tick (he : e = .timer) (hx : exec .tick s = .next t)
  /-- A report is decoded and its command executed. -/
  | command (buf : List Byte) (i : Instr) (he : e = .deliver buf) (hf : s.foregroundEnabled = true)
      (hd : decode buf = .ok i) (hx : exec i s = .next t)
  /-- A short buffer is rejected. -/
  | short (buf : List Byte) (he : e = .deliver buf) (hf : s.foregroundEnabled = true) (hl : buf.length < 8)
      (ht : t = s.giveBack .rejected)
  /-- The outbound report is polled. -/
  | poll (he : e = .poll) (hx : exec .getReport s = .next t)
  /-- The hand-off goes on. -/
  | handoff (i : Instr) (he : e = .foreground) (hi : nextHandoff s.hlog = some i) (hx : exec i s = .next t)
  /-- The event selects no operation. -/
  | nothing (he : notReset e = true) (ht : t = s)

theorem handleLive_next {e : Event} {s t : State} (h : handleLive e s = .next t) : StepCase e s t := by
  cases e with
  | timer =>
    simp only [handleLive] at h
    split at h
    · exact .tick rfl h
    · cases h; exact .nothing rfl rfl
  | deliver buf =>
    simp only [handleLive] at h
    split at h
    · rename_i hf
      rcases deliver_next h with ⟨i, hd, hx⟩ | ⟨hl, ht⟩
      · exact .command buf i rfl hf hd hx
      · exact .short buf rfl hf hl ht
    · cases h; exact .nothing rfl rfl
  | poll =>
    simp only [handleLive] at h
    split at h
    · exact .poll rfl h
    · cases h; exact .nothing rfl rfl
  | foreground =>
    rcases foregroundTurn_next h with ⟨-, i, hi, hx⟩ | ⟨-, ht⟩
    · exact .handoff i rfl hi hx
    · exact .nothing rfl ht
  | channel c => cases h; exact .nothing rfl rfl
  | reset p => cases h; exact .reset p rfl rfl

/-- Every next state of a step, by case; outside MODE = Transferred unless the event is a reset. -/
theorem step_next {s t : State} (h : step s = .next t) :
    (s.mode = .transferred → ∃ p, nextEvent s = .reset p) ∧ StepCase (nextEvent s) s.dropEvent t := by
  unfold step handle at h
  split at h
  · cases he : nextEvent s <;> simp only [he, handleEnded, reduceCtorEq] at h
    cases h
    exact ⟨fun _ => ⟨_, rfl⟩, .reset _ rfl rfl⟩
  · rename_i hm
    exact ⟨fun h' => absurd h' hm, handleLive_next h⟩

theorem runSteps_succ (n : Nat) (s : State) :
    runSteps (n + 1) s =
      match step s with
      | .next t => runSteps n t
      | .fault f => .fault f
      | .refused r => .refused r := rfl

/-- A run is a first step and the run of the rest. -/
theorem runSteps_succ_next {n : Nat} {s t : State} :
    runSteps (n + 1) s = .next t ↔ ∃ u, step s = .next u ∧ runSteps n u = .next t := by
  rw [runSteps_succ]
  cases h : step s <;> simp

theorem runSteps_add {m n : Nat} {s t u : State} (h1 : runSteps m s = .next t) (h2 : runSteps n t = .next u) :
    runSteps (m + n) s = .next u := by
  induction m generalizing s with
  | zero =>
    cases h1
    simpa using h2
  | succ m ih =>
    obtain ⟨v, hv, h1⟩ := runSteps_succ_next.1 h1
    rw [Nat.succ_add]
    exact runSteps_succ_next.2 ⟨v, hv, ih h1⟩

/-- An operation neither reads nor writes the agents' list. -/
theorem exec_inputs {i : Instr} {s t : State} (es : List Event) (h : exec i s = .next t) :
    exec i { s with inputs := es } = .next { t with inputs := es } := by
  cases i with
  | enterBootloader _ _ _ _ _ _ => obtain ⟨hf, rfl⟩ := exec_enterBootloader_next.1 h; exact exec_enterBootloader_next.2 ⟨hf, rfl⟩
  | setLevel _ _ _ _ _ _ _ _ => obtain ⟨hf, rfl⟩ := exec_setLevel_next.1 h; exact exec_setLevel_next.2 ⟨hf, rfl⟩
  | tick => obtain ⟨hf, rfl⟩ := exec_tick_next.1 h; exact exec_tick_next.2 ⟨hf, by rw [tickBody_eq, tickBody_eq]⟩
  | getReport => obtain ⟨hf, rfl⟩ := exec_getReport_next.1 h; exact exec_getReport_next.2 ⟨hf, rfl⟩
  | h1a => obtain ⟨hf, rfl⟩ := exec_h1a_next.1 h; exact exec_h1a_next.2 ⟨hf, rfl⟩
  | h1b => obtain ⟨hf, rfl⟩ := exec_h1b_next.1 h; exact exec_h1b_next.2 ⟨hf, rfl⟩
  | h2 => obtain ⟨hf, rfl⟩ := exec_h2_next.1 h; exact exec_h2_next.2 ⟨hf, rfl⟩
  | h3 => obtain ⟨hf, rfl⟩ := exec_h3_next.1 h; exact exec_h3_next.2 ⟨hf, rfl⟩
  | h4 => obtain ⟨hf, rfl⟩ := exec_h4_next.1 h; exact exec_h4_next.2 ⟨hf, rfl⟩

theorem deliver_inputs {buf : List Byte} {s t : State} (es : List Event) (h : deliver buf s = .next t) :
    deliver buf { s with inputs := es } = .next { t with inputs := es } := by
  unfold deliver at h ⊢
  split at h
  · exact exec_inputs es h
  · cases h; rfl
  · cases h

theorem foregroundTurn_inputs {s t : State} (es : List Event) (h : foregroundTurn s = .next t) :
    foregroundTurn { s with inputs := es } = .next { t with inputs := es } := by
  rcases foregroundTurn_next h with ⟨hq, i, hi, hx⟩ | ⟨hq, rfl⟩
  · simp only [foregroundTurn, hq, hi, if_true]
    simpa only [hq] using exec_inputs es hx
  · exact if_neg hq

theorem handleLive_inputs {e : Event} {s t : State} (es : List Event) (h : handleLive e s = .next t) :
    handleLive e { s with inputs := es } = .next { t with inputs := es } := by
  cases e with
  | timer =>
    rw [handleLive] at h ⊢
    split at h
    · rename_i hf; exact (if_pos hf).trans (exec_inputs es h)
    · rename_i hf; cases h; exact if_neg hf
  | deliver buf =>
    rw [handleLive] at h ⊢
    split at h
    · rename_i hf; exact (if_pos hf).trans (deliver_inputs es h)
    · rename_i hf; cases h; exact if_neg hf
  | poll =>
    rw [handleLive] at h ⊢
    split at h
    · rename_i hf; exact (if_pos hf).trans (exec_inputs es h)
    · rename_i hf; cases h; exact if_neg hf
  | foreground => exact foregroundTurn_inputs es h
  | channel c => cases h; rfl
  | reset p => cases h; rfl

/-- Handling an event neither reads nor writes the agents' list. -/
theorem handle_inputs {e : Event} {s t : State} (es : List Event) (h : handle e s = .next t) :
    handle e { s with inputs := es } = .next { t with inputs := es } := by
  unfold handle at h ⊢
  split at h
  · rename_i hm
    refine (if_pos hm).trans ?_
    cases e <;> cases h
    rfl
  · rename_i hm
    exact (if_neg hm).trans (handleLive_inputs es h)

/-- A run of listed events is the first event handled and the run of the others. -/
theorem runEvents_cons_next {e : Event} {es : List Event} {s t : State} :
    runEvents (e :: es) s = .next t ↔ ∃ u, handle e s = .next u ∧ runEvents es u = .next t := by
  have hs : runEvents (e :: es) s = .next t ↔
      ∃ u, handle e { s with inputs := es } = .next u ∧ runSteps es.length u = .next t := runSteps_succ_next
  rw [hs]
  constructor
  · rintro ⟨u, hu, h⟩
    have h0 : handle e s = .next { u with inputs := s.inputs } :=
      handle_inputs (s := { s with inputs := es }) s.inputs hu
    have hi : u = { u with inputs := es } :=
      Host.Outcome.next.inj (hu.symm.trans (handle_inputs (s := { s with inputs := es }) es hu))
    exact ⟨_, h0, by rw [hi] at h; exact h⟩
  · rintro ⟨u, hu, h⟩
    exact ⟨_, handle_inputs es hu, h⟩

theorem runEvents_append_next {es fs : List Event} {s t : State} :
    runEvents (es ++ fs) s = .next t ↔ ∃ u, runEvents es s = .next u ∧ runEvents fs u = .next t := by
  induction es generalizing s with
  | nil =>
    constructor
    · intro h; exact ⟨_, rfl, h⟩
    · rintro ⟨u, hu, h⟩; cases hu; exact h
  | cons e es ih =>
    rw [List.cons_append, runEvents_cons_next]
    simp only [runEvents_cons_next]
    constructor
    · rintro ⟨v, hv, h⟩
      obtain ⟨u, hu, h⟩ := ih.1 h
      exact ⟨u, ⟨v, hv, hu⟩, h⟩
    · rintro ⟨u, ⟨v, hv, hu⟩, h⟩
      exact ⟨v, hv, ih.2 ⟨u, hu, h⟩⟩

@[simp] theorem runStream_zero (ev : Nat → Event) (s : State) : runStream ev 0 s = .next { s with inputs := [] } := rfl

/-- An endless run goes on by one step of the machine on its next event. -/
theorem runStream_succ_next {ev : Nat → Event} {n : Nat} {s t : State} :
    runStream ev (n + 1) s = .next t ↔
      ∃ u, runStream ev n s = .next u ∧ step { u with inputs := [ev n] } = .next t := by
  unfold runStream
  rw [List.range_succ, List.map_append, runEvents_append_next]
  simp only [List.map_cons, List.map_nil, runEvents, List.length_cons, List.length_nil, runSteps_succ_next]
  constructor
  · rintro ⟨u, hu, v, hv, h⟩; cases h; exact ⟨u, hu, hv⟩
  · rintro ⟨u, hu, hv⟩; exact ⟨u, hu, t, hv, rfl⟩

theorem core_run_next (M : Host.Core) {n : Nat} {x y : M.State} (h : M.step x = .next y) :
    M.run (n + 1) x = M.run n y := by simp [Host.Core.run, h]

theorem core_run_fault (M : Host.Core) {n : Nat} {x : M.State} {f : M.Fault} (h : M.step x = .fault f) :
    M.run (n + 1) x = .fault f := by simp [Host.Core.run, h]

theorem core_run_refused (M : Host.Core) {n : Nat} {x : M.State} {r : M.Refusal} (h : M.step x = .refused r) :
    M.run (n + 1) x = .refused r := by simp [Host.Core.run, h]

/-- `runSteps` is the host's run of this machine. -/
theorem runSteps_eq_core_run (n : Nat) (s : State) : runSteps n s = Host.Core.run core n s := by
  induction n generalizing s with
  | zero => rfl
  | succ n ih =>
    rw [runSteps_succ]
    cases h : step s with
    | next t => exact (ih t).trans (core_run_next core (n := n) h).symm
    | fault f => exact (core_run_fault core (n := n) h).symm
    | refused r => exact (core_run_refused core (n := n) h).symm

end Sys2Proof.Machine
end

