-- ==== Sys2Proof/Tests/Slice0.lean ====
section
/-! SUPPORT. Tests whose expected results stand in spec/ (mostly 95_test_vectors.md), each about one operation or one step,
and for every statement with hypotheses a concrete case that meets them together. -/

namespace Sys2Proof.Tests

open Sys2Proof Sys2Proof.Machine

/-! ### Small states -/

/-- The next state of an outcome, if there is one. -/
def after : Outcome → Option State
  | .next t => some t
  | .fault _ => none
  | .refused _ => none

/-- A running block right after reset but for LEVEL, TICK and PIN. -/
def running (level tick : Nibble) (pin : Bool) : State :=
  { State.reset with level := level, tick := tick, pin := pin, pinDriven := true }

/-- A block in the middle of the hand-off, after the first `k` steps. -/
def quiescing (k : Nat) : State :=
  { running 5 5 true with
    mode := .quiescing, timerIe := decide (k < 1), timerRun := decide (k < 2), chanAttached := decide (k < 3),
    gie := decide (k < 4), hlog := handoffLog.take k }

/-- A block after the transfer. -/
def ended : State := { quiescing 5 with mode := .transferred, hostPc := some Config.bootEntry }

/-- `s` with the agents' list `es`. -/
def doing (s : State) (es : List Event) : State := { s with inputs := es }

/-- LEVEL, TICK and PIN after an outcome. -/
def pwm (o : Outcome) : Option (Nat × Nat × Bool) :=
  (after o).map fun t => (t.level.toNat, t.tick.toNat, t.pin)

/-! ### Well-formedness: the one check, and near misses it lets pass -/

theorem test_wellFormed_refuses_magic_setLevel :
    (Instr.setLevel 0xAA 0xBB 5 0 0 0 0 0).wellFormed = false := by decide

theorem test_wellFormed_admits_near_misses :
    (Instr.setLevel 0xAA 0xBA 9 0 0 0 0 0).wellFormed = true ∧
    (Instr.setLevel 0xAB 0xBB 9 0 0 0 0 0).wellFormed = true ∧
    (Instr.setLevel 0xBB 0xAA 3 0 0 0 0 0).wellFormed = true := by decide

/-! ### Decoding, words written out from R54, R55 and vector V8 -/

-- R54: pattern 10101010 10111011 then ignored bytes, byte 0 first, bit 7 first.
theorem test_decode_enterBootloader_bits :
    decode [0b10101010, 0b10111011, 0b00000101, 1, 2, 3, 4, 5] = .ok (.enterBootloader 5 1 2 3 4 5) := by rfl

-- V8 row 9: bit 7 of byte 0 off.
theorem test_decode_setLevel_bits :
    decode [0b00101010, 0b10111011, 0b00000100, 0, 0, 0, 0, 0] = .ok (.setLevel 0x2A 0xBB 4 0 0 0 0 0) := by rfl

-- V8 row 3 and row 10, in the packing W of R52.
theorem test_table_word_enterBootloader :
    decodeTableWord 64 0x050403020105BBAA = some (.enterBootloader 5 1 2 3 4 5) := by decide

theorem test_table_word_setLevel :
    decodeTableWord 64 0x0000000000BBAAAA = some (.setLevel 0xAA 0xAA 0xBB 0 0 0 0 0) := by decide

-- The row's fixed bits alone: every bit above them is 0.
theorem test_table_word_short_form : decodeTableWord 16 0xBBAA = some (.enterBootloader 0 0 0 0 0 0) := by decide

-- R60: a row of no bits has no encoding. R94: a long buffer decodes to nothing.
theorem test_table_word_none : decodeTableWord 0 0 = none ∧ decodeTableWord 72 0 = none := by decide

theorem test_encode_setLevel : encode (.setLevel 0 0 0xC8 0 0 0 0 0) = some [0, 0, 0xC8, 0, 0, 0, 0, 0] := by decide

/-! ### SET_LEVEL (V9: no wrap, no sign) -/

theorem test_setLevel_saturates :
    (after (exec (.setLevel 0 0 0xC8 0 0 0 0 0) (running 3 0 true))).map (·.level) = some 15 ∧
    (after (exec (.setLevel 0 0 0x10 0 0 0 0 0) (running 9 0 true))).map (·.level) = some 15 ∧
    (after (exec (.setLevel 0 0 0x80 0 0 0 0 0) (running 9 0 true))).map (·.level) = some 15 := by decide

theorem test_setLevel_keeps_small_values :
    pwm (exec (.setLevel 0xAA 0 0x05 0 0 0 0 0) (running 9 4 true)) = some (5, 4, true) ∧
    pwm (exec (.setLevel 0 0 0x0E 0 0 0 0 0) (running 9 4 false)) = some (14, 4, false) := by decide

/-! ### ENTER_BOOTLOADER (V8 rows 2 and 3, V10 row 1) -/

theorem test_enterBootloader_ignores_byte_two :
    (after (exec (.enterBootloader 5 0 0 0 0 0) (running 7 0 true))).map (fun t => (t.mode, t.level.toNat)) =
      some (.quiescing, 7) := by decide

theorem test_short_magic_buffer_is_rejected :
    (after (step (doing (running 7 0 true) [.deliver [0xAA, 0xBB]]))).map (fun t => (t.mode, t.level.toNat, t.returns)) =
      some (.running, 7, [.rejected]) := by decide

/-! ### TICK (V2) -/

theorem test_tick_mid_cycle :
    pwm (exec .tick (running 5 4 true)) = some (5, 5, true) ∧
    pwm (exec .tick (running 5 5 true)) = some (5, 6, false) ∧
    pwm (exec .tick (running 1 0 false)) = some (1, 1, false) ∧
    pwm (exec .tick (running 15 14 true)) = some (15, 15, true) ∧
    pwm (exec .tick (running 14 14 true)) = some (14, 15, false) := by decide

theorem test_tick_boundary :
    pwm (exec .tick (running 0 15 true)) = some (0, 0, false) ∧
    pwm (exec .tick (running 1 15 false)) = some (1, 0, true) ∧
    pwm (exec .tick (running 15 15 true)) = some (15, 0, true) := by decide

-- V1 and P1 line 3: PIN holds no value until a TICK writes it.
theorem test_pin_before_first_write :
    (after (exec .tick State.reset)).map State.pinObserved = some (some false) ∧
    (after (exec .tick { State.reset with level := 5 })).map State.pinObserved = some none := by decide

/-! ### GET_REPORT (V11) -/

theorem test_getReport_bytes :
    (after (exec .getReport (running 15 9 true))).map (fun t => (t.outBuf, t.returns)) =
      some ([(0, 0), (1, 1), (2, 2), (3, 3), (4, 0), (5, 0), (6, 0), (7, 0)], [.report 8 false]) := by decide

theorem test_getReport_not_after_detach : after (exec .getReport (quiescing 3)) = none := by decide

/-! ### The hand-off (V12) -/

theorem test_h1a : (after (exec .h1a (quiescing 0))).map (fun t => (t.timerIe, t.timerRun, t.tickEnabled, t.hlog)) =
    some (false, true, false, [.timerIrqMask]) := by decide

theorem test_h1b : (after (exec .h1b (quiescing 1))).map (fun t => (t.timerRun, t.chanAttached, t.hlog.length)) =
    some (false, true, 2) := by decide

theorem test_h2 : (after (exec .h2 (quiescing 2))).map (fun t => (t.chanAttached, t.gie, t.hlog.length)) =
    some (false, true, 3) := by decide

theorem test_h3 : (after (exec .h3 (quiescing 3))).map (fun t => (t.gie, t.mode, t.hlog.length)) =
    some (false, .quiescing, 4) := by decide

theorem test_h4 : (after (exec .h4 (quiescing 4))).map (fun t => (t.mode, t.pin, t.hlog.length)) =
    some (.transferred, true, 5) := by decide

theorem test_h4_target : (after (exec .h4 (quiescing 4))).map (·.hostPc) = some (some Config.bootEntry) := by rfl

-- V12, last sentence: H2 cannot occur from the start row.
theorem test_h2_out_of_order : after (exec .h2 (quiescing 0)) = none := by decide

-- V13: a timer event before H1A is a TICK, after it is not taken.
theorem test_tick_races_the_mask :
    (after (step (doing { quiescing 0 with level := 4, tick := 15, pin := false } [.timer]))).map
      (fun t => (t.tick.toNat, t.pin)) = some (0, true) ∧
    (after (step (doing { quiescing 1 with level := 4, tick := 15, pin := false } [.timer]))).map
      (fun t => (t.tick.toNat, t.pin)) = some (15, false) := by decide

/-! ### Steps from reset, reset itself -/

theorem test_fetch_word_enterBootloader :
    (after (step (State.reset.withFetchWord 64 0xBBAA))).map (·.mode) = some .quiescing := by decide

theorem test_fetch_word_setLevel :
    (after (step (State.reset.withFetchWord 64 0x050000))).map (·.level) = some 5 := by decide

-- V10 last row: nine bytes have no meaning.
theorem test_long_buffer_refused :
    step (doing (running 7 0 true) [.deliver [0, 0, 12, 0, 0, 0, 0, 0, 0]]) = .refused .longBuffer := by rfl

-- V14.
theorem test_reset_after_transfer :
    (after (step (doing { ended with level := 15 } [.reset true]))).map (fun t => (t.level.toNat, t.mode, t.gie, t.hlog)) =
      some (0, .running, true, []) := by decide

theorem test_memory_canonical :
    Memory.wf State.reset.outBuf = true ∧ Memory.insert [(1, 7)] 0 5 = [(0, 5), (1, 7)] ∧
    Memory.wf [(1, 7), (0, 5)] = false ∧ Memory.wf [(8, 0)] = false := by decide

/-! ### Witnesses: a concrete case that meets all hypotheses of each statement -/

theorem running_ready (l t : Nibble) (p : Bool) : Ready (running l t p) := ⟨rfl, rfl, rfl, rfl, rfl⟩

theorem running_inv (l t : Nibble) (p : Bool) (es : List Event) : StateInv (doing (running l t p) es) := by
  constructor <;> simp [doing, running, State.reset, State.resetWith, Memory.wf]

theorem quiescing_inv (es : List Event) (k : Nat) (h : k < 5) : StateInv (doing (quiescing k) es) := by
  have hk : k = 0 ∨ k = 1 ∨ k = 2 ∨ k = 3 ∨ k = 4 := by omega
  rcases hk with rfl | rfl | rfl | rfl | rfl <;> constructor <;>
    simp [doing, quiescing, running, State.reset, State.resetWith, handoffLog, Memory.wf]

theorem ended_inv (es : List Event) : StateInv (doing ended es) := by
  constructor <;> simp [doing, ended, quiescing, running, State.reset, State.resetWith, handoffLog, Memory.wf]

theorem witness_DecodeEncodeRoundTrip :
    ((Instr.setLevel 0xAA 0xBA 255 1 2 3 4 5).wellFormed = true ∧ (Instr.setLevel 0xAA 0xBA 255 1 2 3 4 5).isReport = true) ∧
    ((Instr.enterBootloader 1 2 3 4 5 6).wellFormed = true ∧ (Instr.enterBootloader 1 2 3 4 5 6).isReport = true) := by
  decide

theorem witness_EncodeDecodeRoundTrip :
    decode [0xAA, 0xBB, 1, 2, 3, 4, 5, 6] = .ok (.enterBootloader 1 2 3 4 5 6) ∧
    decode [0xAA, 0xBC, 1, 2, 3, 4, 5, 6] = .ok (.setLevel 0xAA 0xBC 1 2 3 4 5 6) := ⟨rfl, rfl⟩

theorem witness_EveryReportIsACommand :
    ([0xAA, 0xBB, 0, 0, 0, 0, 0, 0] : List Byte).length = 8 ∧ ([0, 0, 0, 0, 0, 0, 0] : List Byte).length ≠ 8 ∧
    ([0, 0, 0, 0, 0, 0, 0, 0, 0] : List Byte).length ≠ 8 ∧
    ((running 15 0 true).mode = .running ∧ (running 15 0 true).chanAttached = true ∧
      (running 15 0 true).level.toNat = min (200 : Byte).toNat 15) := by decide

theorem witness_OpcodeTableMatchesDecoder :
    (0xBBAA < 2 ^ 64 ∧ 0xBBAA &&& 0xFFFF = 0xBBAA) ∧
    (2 ^ 64 - 1 < 2 ^ 64 ∧ (2 ^ 64 - 1) &&& 0xFFFF ≠ 0xBBAA) := by decide

theorem witness_StepRunsDecodedCommand :
    (doing (running 3 0 true) [.deliver [0, 0, 200, 0, 0, 0, 0, 0]]).inputs = .deliver [0, 0, 200, 0, 0, 0, 0, 0] :: [] ∧
    (doing (running 3 0 true) [.deliver [0, 0, 200, 0, 0, 0, 0, 0]]).mode = .running ∧
    (doing (running 3 0 true) [.deliver [0, 0, 200, 0, 0, 0, 0, 0]]).chanAttached = true ∧
    decode [0, 0, 200, 0, 0, 0, 0, 0] = .ok (.setLevel 0 0 200 0 0 0 0 0) := ⟨rfl, rfl, rfl, rfl⟩

theorem witness_StepHandlesTheNextEvent :
    (doing (running 3 0 true) [.poll]).inputs = .poll :: [] ∧
    ((running 3 0 true).inputs = [] ∧ (running 3 0 true).mode = .running) ∧
    ((quiescing 2).inputs = [] ∧ (quiescing 2).mode = .quiescing) := by decide

theorem witness_EventsSelectOperations :
    ((running 3 0 true).mode = .running ∧ (running 3 0 true).chanAttached = true) ∧
    ((quiescing 0).mode ≠ .transferred ∧ (quiescing 0).timerIe = true ∧ (quiescing 0).timerRun = true ∧
      (quiescing 0).gie = true) ∧
    ((quiescing 0).mode = .quiescing ∧ handoffIndex .h1a = some 0 ∧ (quiescing 0).hlog = handoffLog.take 0) ∧
    ((quiescing 4).mode = .quiescing ∧ handoffIndex .h4 = some 4 ∧ (quiescing 4).hlog = handoffLog.take 4) :=
  ⟨by decide, by decide, ⟨rfl, rfl, rfl⟩, ⟨rfl, rfl, rfl⟩⟩

theorem witness_FetchedWordRunsNext :
    State.reset.mode = .running ∧ State.reset.chanAttached = true ∧ 2 ^ 64 - 1 < 2 ^ 64 := by decide

theorem witness_EventsNotTakenChangeNothing :
    ((doing (quiescing 1) [.timer]).mode ≠ .transferred ∧ (doing (quiescing 1) [.timer]).tickEnabled = false) ∧
    ((doing (quiescing 0) [.poll]).mode ≠ .transferred ∧ (doing (quiescing 0) [.poll]).foregroundEnabled = false) ∧
    ((doing (quiescing 0) [.deliver []]).mode ≠ .transferred ∧ (doing (quiescing 0) [.deliver []]).foregroundEnabled = false) ∧
    (doing (running 1 1 true) [.channel .disconnect]).mode ≠ .transferred ∧
    (doing (running 1 1 true) [.foreground]).mode = .running := by decide

theorem witness_StepStopsOnlyWithoutMeaning :
    (StateInv (doing (running 7 0 true) [.deliver [0, 0, 0, 0, 0, 0, 0, 0, 0]]) ∧
      step (doing (running 7 0 true) [.deliver [0, 0, 0, 0, 0, 0, 0, 0, 0]]) = .refused .longBuffer) ∧
    (StateInv (doing ended [.poll]) ∧ step (doing ended [.poll]) = .refused .runEnded) :=
  ⟨⟨running_inv .., rfl⟩, ⟨ended_inv .., rfl⟩⟩

theorem witness_SetLevelWritesClampedLevel :
    (running 3 0 true).mode = .running ∧ (running 3 0 true).chanAttached = true := by decide

theorem witness_LastSetLevelWins :
    exec (.setLevel 0 0 200 0 0 0 0 0) (running 3 2 true) = .next (running 15 2 true) := by rfl

theorem witness_EnterBootloaderSetsQuiescing :
    (running 9 15 false).mode = .running ∧ (running 9 15 false).chanAttached = true := by decide

theorem witness_GetReportGivesStatusReport :
    (running 0 15 false).mode = .running ∧ (running 0 15 false).chanAttached = true := by decide

theorem witness_ForegroundOnlyWhileRunning :
    (Instr.enterBootloader 0 0 0 0 0 0).isReport = true ∧
    ¬((quiescing 2).mode = .running ∧ (quiescing 2).chanAttached = true) := by decide

theorem witness_DisabledOperationsRefusedByName :
    ¬((quiescing 1).timerIe = true ∧ (quiescing 1).timerRun = true ∧ (quiescing 1).gie = true) ∧
    (handoffIndex .h2 = some 2 ∧ ¬((quiescing 0).mode = .quiescing ∧ (quiescing 0).hlog = handoffLog.take 2)) ∧
    (handoffIndex .h1a = some 0 ∧ ¬((running 0 0 true).mode = .quiescing ∧ (running 0 0 true).hlog = handoffLog.take 0)) := by
  decide

theorem witness_DeliverHasOneOfTwoEffects :
    (running 3 3 true).mode = .running ∧ (running 3 3 true).chanAttached = true ∧
    ((0xAA : Byte) = 0xAA ∧ (0xBB : Byte) = 0xBB) ∧ ¬((0xAA : Byte) = 0xAA ∧ (0x00 : Byte) = 0xBB) := by decide

theorem witness_IgnoredBytesChangeNothing :
    ¬((0xAA : Byte) = 0xAA ∧ (0xBA : Byte) = 0xBB) ∧ ¬((0xAB : Byte) = 0xAA ∧ (0xBB : Byte) = 0xBB) := by decide

theorem witness_ShortBufferRejected :
    (doing (running 7 0 true) [.deliver [0, 0, 12, 0, 0, 0, 0]]).mode = .running ∧
    (doing (running 7 0 true) [.deliver [0, 0, 12, 0, 0, 0, 0]]).chanAttached = true ∧
    ([0, 0, 12, 0, 0, 0, 0] : List Byte).length < 8 ∧ ([] : List Byte).length < 8 := by decide

theorem witness_LongBufferRefused :
    (doing (running 7 0 true) [.deliver [0, 0, 12, 0, 0, 0, 0, 0, 0]]).mode = .running ∧
    (doing (running 7 0 true) [.deliver [0, 0, 12, 0, 0, 0, 0, 0, 0]]).chanAttached = true ∧
    8 < ([0, 0, 12, 0, 0, 0, 0, 0, 0] : List Byte).length := by decide

theorem witness_TickAdvancesCounterAndPin :
    ((running 3 15 false).timerIe = true ∧ (running 3 15 false).timerRun = true ∧ (running 3 15 false).gie = true ∧
      (running 3 15 false).tick.toNat = 15) ∧
    ((quiescing 0).timerIe = true ∧ (quiescing 0).timerRun = true ∧ (quiescing 0).gie = true ∧
      (quiescing 0).tick.toNat ≠ 15) := by decide

theorem witness_TickOccursExactlyWhenEnabled :
    StateInv (doing (quiescing 0) [.timer]) ∧ (doing (quiescing 0) [.timer]).timerIe = true ∧
    (doing (quiescing 0) [.timer]).timerRun = true ∧ (doing (quiescing 0) [.timer]).gie = true :=
  ⟨quiescing_inv _ _ (by decide), rfl, rfl, rfl⟩

theorem witness_PinObservedFromFirstWrite :
    exec .tick (running 3 15 false) = .next (running 3 0 true) ∧
    exec .tick (running 3 1 true) = .next (running 3 2 true) ∧
    exec .tick (running 3 3 true) = .next (running 3 4 false) := ⟨rfl, rfl, rfl⟩

theorem witness_TickCountsModuloSixteen :
    Ready (running 3 15 false) ∧
    [Event.timer, .deliver [0, 0, 9, 0, 0, 0, 0, 0], .poll, .deliver [0xAA, 0xBB], .channel .connect, .foreground, .timer].all
      ordinaryEvent = true := ⟨running_ready .., by decide⟩

theorem witness_LevelIsLastWholeWrite :
    Ready (running 3 2 true) ∧
    [Event.deliver [0, 0, 12, 0, 0, 0, 0, 0], .timer, .deliver [0xAA, 0, 200, 0, 0, 0, 0, 0]].all ordinaryEvent = true :=
  ⟨running_ready .., by decide⟩

theorem witness_WaveformOfOneCycle :
    Ready (running 3 15 false) ∧ (running 3 15 false).tick.toNat = 15 ∧ 15 ≤ 15 := ⟨running_ready .., rfl, le_refl _⟩

theorem witness_OnSlotsPerCycle :
    (Ready (running 0 15 true) ∧ (running 0 15 true).tick.toNat = 15) ∧
    (Ready (running 15 15 false) ∧ (running 15 15 false).tick.toNat = 15) :=
  ⟨⟨running_ready .., rfl⟩, ⟨running_ready .., rfl⟩⟩

theorem witness_PinWithinCycle :
    Ready (running 5 0 true) ∧ 1 ≤ 15 ∧ (running 5 0 true).tick.toNat + 15 ≤ 15 := ⟨running_ready .., by decide, by decide⟩

theorem witness_PinStaysOffUntilBoundary :
    Ready (running 3 8 false) ∧
    [Event.deliver [0, 0, 12, 0, 0, 0, 0, 0], .timer, .timer, .timer, .timer, .timer, .timer, .timer].all ordinaryEvent = true ∧
    (running 3 8 false).pin = false ∧
    (running 3 8 false).tick.toNat +
      timerCount [Event.deliver [0, 0, 12, 0, 0, 0, 0, 0], .timer, .timer, .timer, .timer, .timer, .timer, .timer] ≤ 15 :=
  ⟨running_ready .., by decide, rfl, by decide⟩

theorem witness_PinChangesOnlyByTick :
    (step (doing (running 3 15 false) [.timer]) = .next (running 3 0 true) ∧
      notReset (nextEvent (doing (running 3 15 false) [.timer])) = true ∧
      (running 3 0 true).pin ≠ (doing (running 3 15 false) [.timer]).pin) ∧
    (step (doing (running 3 3 true) [.timer]) = .next (running 3 4 false) ∧
      (running 3 4 false).pin ≠ (doing (running 3 3 true) [.timer]).pin) :=
  ⟨⟨rfl, rfl, by decide⟩, ⟨rfl, by decide⟩⟩

theorem witness_LevelZeroIsDark :
    Ready (running 0 15 true) ∧ (running 0 15 true).level.toNat = 0 ∧ 1 ≤ 1 := ⟨running_ready .., rfl, le_refl _⟩

theorem witness_H1AMasksTheTimer :
    (quiescing 0).mode = .quiescing ∧ (quiescing 0).hlog = [] ∧ [Event.timer, .foreground].all notReset = true := by decide

theorem witness_H1BStopsTheTimerClock :
    (quiescing 1).mode = .quiescing ∧ (quiescing 1).hlog = [.timerIrqMask] := by decide

theorem witness_H2DetachesTheChannel :
    (quiescing 2).mode = .quiescing ∧ (quiescing 2).hlog = [.timerIrqMask, .timerClockStop] ∧
    [Event.poll, .deliver [0, 0, 9, 0, 0, 0, 0, 0], .foreground].all notReset = true ∧
    runSteps 3 (doing (quiescing 3) [.poll, .deliver [0, 0, 9, 0, 0, 0, 0, 0], .foreground]) = .next (quiescing 4) ∧
    (Instr.setLevel 0 0 5 0 0 0 0 0).isReport = true := ⟨rfl, rfl, by decide, rfl, rfl⟩

theorem witness_H3DisablesInterrupts :
    (quiescing 3).mode = .quiescing ∧ (quiescing 3).hlog = [.timerIrqMask, .timerClockStop, .channelDetach] ∧
    StateInv (quiescing 3) := ⟨rfl, rfl, quiescing_inv [] 3 (by decide)⟩

theorem witness_H4TransfersControl :
    (quiescing 4).mode = .quiescing ∧
    (quiescing 4).hlog = [.timerIrqMask, .timerClockStop, .channelDetach, .globalIrqDisable] ∧
    ∀ p rest, [Event.timer] ≠ .reset p :: rest := by
  refine ⟨rfl, rfl, fun p rest h => ?_⟩
  cases h

theorem witness_HandoffStepsOnlyInOrder :
    (handoffIndex .h1b = some 1 ∧ (quiescing 1).mode = .quiescing ∧ (quiescing 1).hlog = handoffLog.take 1) ∧
    ((quiescing 0).mode = .quiescing ∧ (Instr.enterBootloader 0 0 0 0 0 0).isReport = true) ∧
    (StateInv ended ∧ ended.mode = .transferred) := ⟨⟨rfl, rfl, rfl⟩, ⟨rfl, rfl⟩, ended_inv [], rfl⟩

theorem witness_HandoffReachesTransferred :
    StateInv (quiescing 3) ∧ (quiescing 3).mode = .quiescing ∧
    [Event.timer, .foreground, .poll, .foreground].all notReset = true ∧
    5 - (quiescing 3).hlog.length ≤ [Event.timer, .foreground, .poll, .foreground].count .foreground :=
  ⟨quiescing_inv [] 3 (by decide), rfl, by decide, by decide⟩

theorem witness_HandoffCompletesByItself :
    (StateInv (quiescing 0) ∧ (quiescing 0).mode = .quiescing ∧ (quiescing 0).inputs = []) ∧
    (StateInv (quiescing 4) ∧ (quiescing 4).mode = .quiescing ∧ (quiescing 4).inputs = []) :=
  ⟨⟨quiescing_inv [] 0 (by decide), rfl, rfl⟩, ⟨quiescing_inv [] 4 (by decide), rfl, rfl⟩⟩

theorem witness_NoTickAfterMask :
    (quiescing 1).timerIe = false ∧ (∀ p, TraceLine.reset p ∉ [TraceLine.h1b]) ∧
    runTrace [.h1b] (quiescing 1) = .next (quiescing 2) := by
  refine ⟨rfl, fun p h => ?_, rfl⟩
  simp at h

theorem witness_EachOperationWritesItsOwn :
    exec .h1b (quiescing 1) = .next (quiescing 2) ∧ exec .tick (running 3 15 false) = .next (running 3 0 true) ∧
    exec (.setLevel 0 0 9 0 0 0 0 0) (running 3 15 false) = .next (running 9 15 false) := ⟨rfl, rfl, rfl⟩

theorem witness_ModeMovesForwardEnablesFall :
    (step (doing (running 5 5 true) [.deliver [0xAA, 0xBB, 0, 0, 0, 0, 0, 0]]) = .next (quiescing 0) ∧
      notReset (nextEvent (doing (running 5 5 true) [.deliver [0xAA, 0xBB, 0, 0, 0, 0, 0, 0]])) = true ∧
      (quiescing 0).mode ≠ .running) ∧
    (step (doing (quiescing 4) [.foreground]) = .next ended ∧
      notReset (nextEvent (doing (quiescing 4) [.foreground])) = true) :=
  ⟨⟨rfl, rfl, by decide⟩, ⟨rfl, rfl⟩⟩

theorem witness_ResetGivesResetValues : (doing ended [.reset true, .timer]).inputs = .reset true :: [.timer] := by rfl

-- A run of 16 ticks after SET_LEVEL 9 shows the pin ON; its last tick is the lit boundary.
theorem witness_DarkUntilLevelAndBoundary :
    ((after (runSteps 17 { State.resetWith true with
        inputs := .deliver [0, 0, 9, 0, 0, 0, 0, 0] :: List.replicate 16 .timer })).map State.pinObserved = some (some true)) ∧
    ((Event.deliver [0, 0, 9, 0, 0, 0, 0, 0] :: List.replicate 15 .timer).all ordinaryEvent = true ∧
      timerCount (Event.deliver [0, 0, 9, 0, 0, 0, 0, 0] :: List.replicate 15 .timer) ≤ 15) ∧
    ((Event.deliver [0, 0, 0, 0, 0, 0, 0, 0] :: List.replicate 20 .timer).all ordinaryEvent = true ∧
      requestedLevel [0, 0, 0, 0, 0, 0, 0, 0] = some 0) := by decide

-- PIN_RESET ON is not yet seen; the boundary tick that reads level 3 makes it seen.
theorem witness_PinSeenOnOnlyByLitBoundary :
    step (doing { running 3 15 true with pinDriven := false } [.timer]) = .next (running 3 0 true) ∧
    (doing { running 3 15 true with pinDriven := false } [.timer]).pinObserved ≠ some true ∧
    (running 3 0 true).pinObserved = some true := ⟨rfl, by decide, by decide⟩

theorem witness_InvariantKeptByStep :
    StateInv (doing (quiescing 4) [.foreground]) ∧ step (doing (quiescing 4) [.foreground]) = .next ended :=
  ⟨quiescing_inv _ _ (by decide), rfl⟩

theorem witness_SpecInvariantsHoldInEveryRun :
    runSteps 2 { State.resetWith true with
      inputs := [.deliver [0, 0, 9, 0, 0, 0, 0, 0], .deliver [0xAA, 0xBB, 0, 0, 0, 0, 0, 0]] } =
      .next { State.resetWith true with level := 9, mode := .quiescing } := by rfl

theorem witness_HostLearnsNothingOfPwm :
    sameToHost (doing (running 3 15 false) [.timer, .poll]) (doing (running 9 2 true) [.timer, .poll]) ∧
    runSteps 1 (doing (running 3 15 false) [.timer]) = .next (running 3 0 true) := ⟨rfl, rfl⟩

theorem witness_TickCommutesWithOtherOperations :
    StateInv (running 5 4 true) ∧
    (exec .tick (running 5 4 true) = .next (running 5 5 true) ∧
      exec (.enterBootloader 0 0 0 0 0 0) (running 5 5 true) = .next (quiescing 0)) ∧
    (exec (.enterBootloader 0 0 0 0 0 0) (running 5 4 true) = .next { running 5 4 true with mode := .quiescing } ∧
      exec .tick { running 5 4 true with mode := .quiescing } = .next (quiescing 0)) :=
  ⟨running_inv 5 4 true [], ⟨rfl, rfl⟩, ⟨rfl, rfl⟩⟩

theorem witness_TraceRunsAreMachineRuns :
    StateInv (running 5 4 true) ∧ (running 5 4 true).inputs = [] ∧
    runTrace [.tick, .report [0xAA, 0xBB, 0, 0, 0, 0, 0, 0], .h1a] (running 5 4 true) = .next (quiescing 1) :=
  ⟨running_inv 5 4 true [], rfl, rfl⟩

/-! ### Witnesses for endless runs -/

/-- The stream in which `a` and `b` take turns for ever. -/
def turns (a b : Event) (n : Nat) : Event := if n % 2 = 0 then a else b

theorem turns_recurs_left (a b : Event) : Recurs (turns a b) a :=
  fun n => ⟨2 * n, by omega, if_pos (by omega)⟩

theorem turns_recurs_right (a b : Event) : Recurs (turns a b) b :=
  fun n => ⟨2 * n + 1, by omega, if_neg (by omega)⟩

theorem turns_all (p : Event → Prop) {a b : Event} (ha : p a) (hb : p b) (n : Nat) : p (turns a b n) := by
  unfold turns
  split <;> assumption

/-- The report that sets level 9. -/
def nine : Event := .deliver [0, 0, 9, 0, 0, 0, 0, 0]

theorem step_nine {s : State} (h : Ready s) : step (doing s [nine]) = .next (doing (s.writeLevel 9) []) := by
  have hf : s.foregroundEnabled = true := (State.foregroundEnabled_iff s).2 ⟨h.mode, h.chanAttached⟩
  have hm : s.mode ≠ .transferred := by simp [h.mode]
  exact (if_neg hm).trans ((if_pos hf).trans
    (show exec (.setLevel 0 0 9 0 0 0 0 0) (doing s []) = _ from exec_setLevel_next.2 ⟨hf, rfl⟩))

theorem step_timer {s : State} (h : Ready s) : step (doing s [.timer]) = .next (tickBody (doing s [])) := by
  have ht : s.tickEnabled = true := (State.tickEnabled_iff s).2 ⟨h.timerIe, h.timerRun, h.gie⟩
  have hm : s.mode ≠ .transferred := by simp [h.mode]
  exact (if_neg hm).trans ((if_pos ht).trans (exec_tick_next.2 ⟨ht, rfl⟩))

theorem ready_step {s : State} (h : Ready s) (n : Nat) :
    ∃ t, step (doing s [turns nine .timer n]) = .next t ∧ Ready t := by
  unfold turns
  split
  · exact ⟨_, step_nine h, ⟨h.mode, h.timerIe, h.timerRun, h.chanAttached, h.gie⟩⟩
  · exact ⟨_, step_timer h, by rw [tickBody_eq]; exact ⟨h.mode, h.timerIe, h.timerRun, h.chanAttached, h.gie⟩⟩

/-- A host that sets level 9 before every tick, for ever. -/
theorem nine_runs (n : Nat) : ∃ t, runStream (turns nine .timer) n (running 5 0 true) = .next t ∧ Ready t := by
  induction n with
  | zero => exact ⟨_, rfl, running_ready ..⟩
  | succ n ih =>
    obtain ⟨t, ht, hr⟩ := ih
    obtain ⟨u, hu, hr'⟩ := ready_step hr n
    exact ⟨u, runStream_succ_next.2 ⟨t, ht, hu⟩, hr'⟩

theorem witness_FairRunsTickForEver :
    StateInv (running 5 0 true) ∧ Fair (running 5 0 true) (turns nine .timer) ∧
    ∀ n, ∃ t, runStream (turns nine .timer) n (running 5 0 true) = .next t ∧ t.mode = .running := by
  refine ⟨running_inv 5 0 true [], ⟨fun n _ => turns_recurs_right _ _ n, fun n h => ?_⟩, fun n => ?_⟩
  · obtain ⟨t, ht, hq⟩ := h n (le_refl n)
    obtain ⟨u, hu, hr⟩ := nine_runs n
    cases ht.symm.trans hu
    rw [hr.mode] at hq
    cases hq
  · obtain ⟨t, ht, hr⟩ := nine_runs n
    exact ⟨t, ht, hr.mode⟩

theorem witness_FairRunsCompleteTheHandoff :
    StateInv (quiescing 0) ∧ Fair (quiescing 0) (turns .timer .foreground) ∧
    (∀ n, notReset (turns .timer .foreground n) = true) ∧
    runStream (turns .timer .foreground) 0 (quiescing 0) = .next (quiescing 0) ∧ (quiescing 0).mode = .quiescing :=
  ⟨quiescing_inv [] 0 (by decide), ⟨fun n _ => turns_recurs_left _ _ n, fun n _ => turns_recurs_right _ _ n⟩,
    turns_all (notReset · = true) rfl rfl, rfl, rfl⟩

theorem witness_HostIsFreeInFairRuns :
    (Ready (running 5 0 true) ∧ (∀ n, ordinaryEvent (turns nine .timer n) = true) ∧ Recurs (turns nine .timer) .timer) ∧
    (StateInv (running 5 0 true) ∧ (∀ n, notReset (turns .timer .foreground n) = true) ∧
      (∀ n buf, turns .timer .foreground n = .deliver buf → buf.length ≤ 8) ∧
      Recurs (turns .timer .foreground) .timer ∧ Recurs (turns .timer .foreground) .foreground) :=
  ⟨⟨running_ready .., turns_all (ordinaryEvent · = true) rfl rfl, turns_recurs_right _ _⟩,
    ⟨running_inv 5 0 true [], turns_all (notReset · = true) rfl rfl,
      turns_all (∀ buf, · = .deliver buf → buf.length ≤ 8) (fun _ h => nomatch h) (fun _ h => nomatch h),
      turns_recurs_left _ _, turns_recurs_right _ _⟩⟩

end Sys2Proof.Tests
end

section
/-! Proofs about the encoding: which command an eight-byte report is (R53, R58), which operation an event selects (R53),
and which bytes of a report matter (R57). -/

namespace Sys2Proof.Machine

section Report

variable {b0 b1 b2 b3 b4 b5 b6 b7 : Byte} {s : State}

/-! ### The command of an eight-byte report -/

theorem decode_report :
    decode [b0, b1, b2, b3, b4, b5, b6, b7] = .ok (decodeReport b0 b1 b2 b3 b4 b5 b6 b7) := rfl

/-- The test of R53 on the bytes themselves, the magic pair first. -/
theorem decodeReport_eq_ite :
    decodeReport b0 b1 b2 b3 b4 b5 b6 b7 =
      if b0 = 0xAA ∧ b1 = 0xBB then .enterBootloader b2 b3 b4 b5 b6 b7 else .setLevel b0 b1 b2 b3 b4 b5 b6 b7 := by
  simp only [decodeReport, isMagic_iff]

theorem decodeReport_of_magic (h : b0 = 0xAA ∧ b1 = 0xBB) :
    decodeReport b0 b1 b2 b3 b4 b5 b6 b7 = .enterBootloader b2 b3 b4 b5 b6 b7 :=
  decodeReport_eq_ite.trans (if_pos h)

theorem decodeReport_of_not_magic (h : ¬(b0 = 0xAA ∧ b1 = 0xBB)) :
    decodeReport b0 b1 b2 b3 b4 b5 b6 b7 = .setLevel b0 b1 b2 b3 b4 b5 b6 b7 :=
  decodeReport_eq_ite.trans (if_neg h)

/-! ### What delivering an eight-byte report runs -/

theorem deliver_report :
    deliver [b0, b1, b2, b3, b4, b5, b6, b7] s = exec (decodeReport b0 b1 b2 b3 b4 b5 b6 b7) s := rfl

/-- The magic report starts the hand-off, whatever its other six bytes are. -/
theorem deliver_of_magic (h : b0 = 0xAA ∧ b1 = 0xBB) :
    deliver [b0, b1, b2, b3, b4, b5, b6, b7] s = execEnterBootloader s := by
  rw [deliver_report, decodeReport_of_magic h, exec]

/-- Every other report sets the level from byte 2 alone. -/
theorem deliver_of_not_magic (h : ¬(b0 = 0xAA ∧ b1 = 0xBB)) :
    deliver [b0, b1, b2, b3, b4, b5, b6, b7] s = execSetLevel b2 s := by
  rw [deliver_report, decodeReport_of_not_magic h, exec]

end Report

/-! ### A level that is already there -/

@[simp] theorem State.writeLevel_self (s : State) : s.writeLevel s.level = s := rfl

theorem clampLevel_eq_iff (lvl : Byte) (l : Nibble) : clampLevel lvl = l ↔ l.toNat = min lvl.toNat 15 := by
  rw [← BitVec.toNat_inj, clampLevel_toNat, eq_comm]

/-! ### The operation an event selects -/

section Event

variable {e : Event} {s : State}

theorem handle_of_not_transferred (h : s.mode ≠ .transferred) : handle e s = handleLive e s := if_neg h

theorem not_transferred_of_foregroundEnabled (h : s.foregroundEnabled = true) : s.mode ≠ .transferred := by
  obtain ⟨hm, -⟩ := s.foregroundEnabled_iff.1 h
  simp [hm]

theorem handle_timer (hm : s.mode ≠ .transferred) (h : s.tickEnabled = true) : handle .timer s = exec .tick s :=
  (handle_of_not_transferred hm).trans (if_pos h)

theorem handle_deliver (buf : List Byte) (h : s.foregroundEnabled = true) : handle (.deliver buf) s = deliver buf s :=
  (handle_of_not_transferred (not_transferred_of_foregroundEnabled h)).trans (if_pos h)

theorem handle_poll (h : s.foregroundEnabled = true) : handle .poll s = exec .getReport s :=
  (handle_of_not_transferred (not_transferred_of_foregroundEnabled h)).trans (if_pos h)

/-- The converse of `nextHandoff_some`: after the first `k` hand-off events the step of place `k` is next (R116). -/
theorem nextHandoff_take {i : Instr} {k : Nat} (h : handoffIndex i = some k) :
    nextHandoff (handoffLog.take k) = some i := by
  cases i <;> cases h <;> rfl

theorem handle_foreground {i : Instr} (hm : s.mode = .quiescing) (h : nextHandoff s.hlog = some i) :
    handle .foreground s = exec i s := by
  have hlive : s.mode ≠ .transferred := by simp [hm]
  rw [handle_of_not_transferred hlive, handleLive, foregroundTurn, if_pos hm, h]

end Event

/-! ### The obligations -/

/-- Settles O3: an eight-byte buffer is a report and the magic test has two answers; another length has no command; a
write of the level already there is the identity. -/
theorem everyReportIsACommand : Obligations.EveryReportIsACommand := by
  refine ⟨fun buf hlen => ?_, fun buf i hlen hdec => ?_, fun s m0 m1 lvl b3 b4 b5 b6 b7 hmode hchan hlevel => ?_⟩
  · obtain ⟨b0, b1, b2, b3, b4, b5, b6, b7, rfl⟩ := eight_of_length hlen
    by_cases hmagic : b0 = 0xAA ∧ b1 = 0xBB
    · exact .inl ⟨_, _, _, _, _, _, decode_report.trans (congrArg _ (decodeReport_of_magic hmagic))⟩
    · exact .inr ⟨_, _, _, _, _, _, _, _,
        decode_report.trans (congrArg _ (decodeReport_of_not_magic hmagic)), hmagic⟩
  · obtain ⟨_, _, _, _, _, _, _, _, rfl, -⟩ := decode_eq_ok hdec
    exact hlen rfl
  · have hclamp : clampLevel lvl = s.level := (clampLevel_eq_iff lvl s.level).2 hlevel
    exact exec_setLevel_next.2 ⟨s.foregroundEnabled_iff.2 ⟨hmode, hchan⟩, by rw [hclamp, State.writeLevel_self]⟩

/-- Settles O8: one clause per agent, each by the rule for its event. -/
theorem eventsSelectOperations : Obligations.EventsSelectOperations := by
  intro s
  refine ⟨fun b0 b1 b2 b3 b4 b5 b6 b7 hmode hchan => ?_, fun hmode hie hrun hgie => ?_, fun hmode hchan => ?_,
    fun i k hmode hindex hlog => ?_⟩
  · rw [handle_deliver _ (s.foregroundEnabled_iff.2 ⟨hmode, hchan⟩), deliver_report, decodeReport_eq_ite]
  · exact handle_timer hmode (s.tickEnabled_iff.2 ⟨hie, hrun, hgie⟩)
  · exact handle_poll (s.foregroundEnabled_iff.2 ⟨hmode, hchan⟩)
  · exact handle_foreground hmode (hlog ▸ nextHandoff_take hindex)

/-- Settles O20: both reports of a pair run the same operation with the same operand, in every state. -/
theorem ignoredBytesChangeNothing : Obligations.IgnoredBytesChangeNothing := by
  intro s
  constructor
  · intro b0 b1 c0 c1 b2 b3 b4 b5 b6 b7 c3 c4 c5 c6 c7 hb hc
    rw [deliver_of_not_magic hb, deliver_of_not_magic hc]
  · intro b2 b3 b4 b5 b6 b7 c2 c3 c4 c5 c6 c7
    rw [deliver_of_magic ⟨rfl, rfl⟩, deliver_of_magic ⟨rfl, rfl⟩]

end Sys2Proof.Machine
end

section
/-! Proofs about TICK: what one tick does to the counter, to PIN and to the rest of the block (R70), and when a tick
occurs (R71). -/

namespace Sys2Proof.Machine

section Tick

variable {s : State}

/-! ### The fields after a tick -/

/-- The frame of a tick: all but the counter and the output latch, with the record of its write, is as before. -/
theorem tickBody_frame (s : State) : tickBody s =
    { s with tick := (tickBody s).tick, pin := (tickBody s).pin, pinDriven := (tickBody s).pinDriven } := by
  rw [tickBody_eq]

theorem tickBody_tick_toNat (s : State) : (tickBody s).tick.toNat = (s.tick.toNat + 1) % 16 := by
  rw [tickBody_eq, nibble_succ_toNat]

theorem tickBody_tick_of_boundary (h : s.tick.toNat = 15) : (tickBody s).tick.toNat = 0 := by
  rw [tickBody_tick_toNat, h]

theorem tickBody_tick_of_midCycle (h : s.tick.toNat ≠ 15) : (tickBody s).tick.toNat = s.tick.toNat + 1 := by
  have hlt : s.tick.toNat < 16 := s.tick.isLt
  rw [tickBody_tick_toNat, Nat.mod_eq_of_lt (by omega)]

theorem tickBody_pin_of_boundary (h : s.tick.toNat = 15) : (tickBody s).pin = decide (0 < s.level.toNat) := by
  rw [tickBody_eq]
  exact if_pos h

theorem tickBody_pin_of_midCycle (h : s.tick.toNat ≠ 15) :
    (tickBody s).pin = if s.level.toNat < s.tick.toNat + 1 then false else s.pin := by
  rw [tickBody_eq]
  exact if_neg h

/-! ### When a tick occurs -/

/-- TICK answers a next state exactly where the spec's TickEnabled (R25) holds. -/
theorem exec_tick_occurs_iff : (∃ t, exec .tick s = .next t) ↔ s.tickEnabled = true := by
  simp only [exec_tick_next, exists_and_left, exists_eq, and_true]

/-- The first step of a hand-off masks the timer and the last one transfers, so an unmasked timer means that the run has
not ended (R111, R115). -/
theorem StateInv.not_transferred_of_timerIe (hinv : StateInv s) (h : s.timerIe = true) : s.mode ≠ .transferred := by
  intro hm
  have hlen : s.hlog.length = 5 := hinv.transferred.1 hm
  have hmask : s.hlog.length < 1 := of_decide_eq_true (hinv.timerIe.symm.trans h)
  omega

end Tick

/-! ### The obligations -/

/-- Settles O23: an enabled TICK answers `tickBody s`, whose fields the lemmas above give, at the boundary and in
mid-cycle. -/
theorem tickAdvancesCounterAndPin : Obligations.TickAdvancesCounterAndPin := by
  intro s hie hrun hgie
  refine ⟨tickBody s, exec_tick_next.2 ⟨s.tickEnabled_iff.2 ⟨hie, hrun, hgie⟩, rfl⟩, tickBody_frame s,
    fun hboundary => ?_, fun hmid => ?_⟩
  · exact ⟨tickBody_tick_of_boundary hboundary, tickBody_pin_of_boundary hboundary⟩
  · exact ⟨tickBody_tick_of_midCycle hmid, tickBody_pin_of_midCycle hmid⟩

/-- Settles O24: TICK's one guard is TickEnabled, and in the invariant an enabled timer is never met after the transfer,
where alone its event would not run TICK. -/
theorem tickOccursExactlyWhenEnabled : Obligations.TickOccursExactlyWhenEnabled := by
  intro s
  refine ⟨exec_tick_occurs_iff.trans s.tickEnabled_iff, fun hinv hie hrun hgie => ?_⟩
  exact handle_timer (hinv.not_transferred_of_timerIe hie) (s.tickEnabled_iff.2 ⟨hie, hrun, hgie⟩)

end Sys2Proof.Machine
end

section
/-! Proofs about the effects of the report commands: the value SET_LEVEL writes (R91), the one effect of an eight-byte
report (R97), and what a poll leaves as it was (R95). -/

namespace Sys2Proof.Machine

section Effect

variable {b0 b1 b2 b3 b4 b5 b6 b7 : Byte} {s : State}

/-! ### The level written -/

/-- The saturation law `clampLevel_toNat` read at the four bits of LEVEL. -/
theorem clampLevel_eq_ofNat (lvl : Byte) : clampLevel lvl = BitVec.ofNat 4 (min lvl.toNat 15) := by
  have hfits : min lvl.toNat 15 < 2 ^ 4 := by omega
  rw [clampLevel_eq_iff, BitVec.toNat_ofNat, Nat.mod_eq_of_lt hfits]

/-! ### The answer of a delivered report -/

theorem deliver_of_magic_next (hf : s.foregroundEnabled = true) (h : b0 = 0xAA ∧ b1 = 0xBB) :
    deliver [b0, b1, b2, b3, b4, b5, b6, b7] s = .next (s.writeMode .quiescing) := by
  rw [deliver_report, decodeReport_of_magic h]
  exact exec_enterBootloader_next.2 ⟨hf, rfl⟩

theorem deliver_of_not_magic_next (hf : s.foregroundEnabled = true) (h : ¬(b0 = 0xAA ∧ b1 = 0xBB)) :
    deliver [b0, b1, b2, b3, b4, b5, b6, b7] s = .next (s.writeLevel (clampLevel b2)) := by
  rw [deliver_report, decodeReport_of_not_magic h]
  exact exec_setLevel_next.2 ⟨hf, rfl⟩

/-! ### What space OUT and the returned values leave as they were -/

/-- Space OUT and the values handed back are none of the nine elements of R10. -/
theorem sameElements_giveBack_writeOut (s : State) (m : Memory) (r : Return) :
    SameElements s ((s.writeOut m).giveBack r) := by
  constructor <;> simp

end Effect

/-! ### The obligations -/

/-- Settles O13: an enabled SET_LEVEL is one write of LEVEL, and the value written is the saturated operand. -/
theorem setLevelWritesClampedLevel : Obligations.SetLevelWritesClampedLevel := by
  intro s m0 m1 lvl b3 b4 b5 b6 b7 hmode hchan
  exact ⟨s.writeLevel (clampLevel lvl), exec_setLevel_next.2 ⟨s.foregroundEnabled_iff.2 ⟨hmode, hchan⟩, rfl⟩, rfl,
    clampLevel_toNat lvl⟩

/-- Settles O19: the magic test of R53 picks the one effect of a report, and GET_REPORT touches only what stands beside
the nine elements. -/
theorem deliverHasOneOfTwoEffects : Obligations.DeliverHasOneOfTwoEffects := by
  intro s hmode hchan
  have hf : s.foregroundEnabled = true := s.foregroundEnabled_iff.2 ⟨hmode, hchan⟩
  refine ⟨fun b0 b1 b2 b3 b4 b5 b6 b7 => ?_, _, exec_getReport_next.2 ⟨hf, rfl⟩, sameElements_giveBack_writeOut ..⟩
  by_cases hmagic : b0 = 0xAA ∧ b1 = 0xBB
  · exact ⟨_, deliver_of_magic_next hf hmagic, fun _ => rfl, fun hnot => absurd hmagic hnot⟩
  · exact ⟨_, deliver_of_not_magic_next hf hmagic, fun hmag => absurd hmag hmagic,
      fun _ => congrArg s.writeLevel (clampLevel_eq_ofNat b2)⟩

end Sys2Proof.Machine
end

section
/-! Proofs about the bootloader hand-off: what each of its five steps does (R111 to R115), the order they come in (R116),
and what a masked timer and a detached channel leave as it was in every later state of a run without a reset. -/

namespace Sys2Proof.Machine

section Handoff

variable {i : Instr} {s t u : State}

/-! ### One hand-off step -/

/-- The log after `emit`, with the log before it named. -/
theorem State.emit_of_hlog {log : List HandoffEvent} (e : HandoffEvent) (h : s.hlog = log) :
    s.emit e = { s with hlog := log ++ [e] } := by
  rw [← h]
  rfl

/-- Each hand-off step is the shared operation of R116 after the first `k` events of the log, and appends the next one;
its own effect leaves the log alone. -/
theorem exec_eq_handoffStep {k : Nat} (h : handoffIndex i = some k) :
    ∃ (e : HandoffEvent) (f : State → State), handoffLog.take (k + 1) = handoffLog.take k ++ [e] ∧
      (∀ s, (f s).hlog = s.hlog) ∧ ∀ s, exec i s = handoffStep (handoffLog.take k) e f s := by
  cases i with
  | h1a => cases h; exact ⟨_, State.maskTimer, rfl, State.maskTimer_hlog, fun _ => rfl⟩
  | h1b => cases h; exact ⟨_, State.stopTimer, rfl, State.stopTimer_hlog, fun _ => rfl⟩
  | h2 => cases h; exact ⟨_, State.detachChannel, rfl, State.detachChannel_hlog, fun _ => rfl⟩
  | h3 => cases h; exact ⟨_, State.disableInterrupts, rfl, State.disableInterrupts_hlog, fun _ => rfl⟩
  | h4 => cases h; exact ⟨_, transferControl, rfl, fun _ => rfl, fun _ => rfl⟩
  | _ => cases h

theorem exec_handoff_occurs_iff {k : Nat} (h : handoffIndex i = some k) :
    (∃ t, exec i s = .next t) ↔ s.mode = .quiescing ∧ s.hlog = handoffLog.take k := by
  obtain ⟨e, f, -, -, hexec⟩ := exec_eq_handoffStep h
  simp only [hexec, handoffStep_next, exists_and_left, exists_eq, and_true]

theorem exec_handoff_hlog {k : Nat} (h : handoffIndex i = some k) (hx : exec i s = .next t) :
    t.hlog = handoffLog.take (k + 1) := by
  obtain ⟨e, f, htake, hkeep, hexec⟩ := exec_eq_handoffStep h
  obtain ⟨⟨-, hlog⟩, rfl⟩ := handoffStep_next.1 ((hexec s).symm.trans hx)
  rw [State.emit_hlog, hkeep, hlog, htake]

theorem StateInv.hlog_of_transferred (hinv : StateInv s) (h : s.mode = .transferred) : s.hlog = handoffLog := by
  have hlog := hinv.log
  rw [hinv.transferred.1 h] at hlog
  exact hlog

/-! ### Operations that are not enabled -/

/-- The commands of a report and GET_REPORT answer a next state only where R98 lets them occur. -/
theorem foregroundEnabled_of_exec (h : i.isReport = true ∨ i = .getReport) (hx : exec i s = .next t) :
    s.foregroundEnabled = true := by
  cases i with
  | enterBootloader => exact (exec_enterBootloader_next.1 hx).1
  | setLevel => exact (exec_setLevel_next.1 hx).1
  | getReport => exact (exec_getReport_next.1 hx).1
  | _ => simp [Instr.isReport] at h

theorem not_foregroundEnabled_of_detached (h : s.chanAttached = false) : ¬ s.foregroundEnabled = true := by
  simp [State.foregroundEnabled, h]

theorem not_foregroundEnabled_of_quiescing (h : s.mode = .quiescing) : ¬ s.foregroundEnabled = true := by
  simp [State.foregroundEnabled, h]

theorem not_tickEnabled_of_masked (h : s.timerIe = false) : ¬ s.tickEnabled = true := by
  simp [State.tickEnabled, h]

/-! ### The event of a step without a reset -/

/-- What comes when nothing is listed is never a reset. -/
theorem notReset_nextEvent (h : ∀ p rest, s.inputs ≠ .reset p :: rest) : notReset (nextEvent s) = true := by
  cases hin : s.inputs with
  | nil =>
    by_cases hq : s.mode = .quiescing <;> simp [nextEvent, hin, hq, notReset]
  | cons e es =>
    rw [nextEvent_cons s e es hin]
    cases e with
    | reset p => exact absurd hin (h p es)
    | _ => rfl

theorem notReset_nextEvent_of_all (h : s.inputs.all notReset = true) : notReset (nextEvent s) = true := by
  refine notReset_nextEvent fun p rest hin => ?_
  simp [hin, notReset] at h

/-- A step takes one event off the agents' list and does nothing else to it. -/
theorem step_inputs (h : step s = .next t) : t.inputs = s.inputs.tail := by
  have hsame := Host.Outcome.next.inj (h.symm.trans (handle_inputs (s := s.dropEvent) s.inputs.tail h))
  rw [hsame]

/-- After the transfer only a reset goes on (R9, R120). -/
theorem step_of_transferred (hm : s.mode = .transferred) (h : notReset (nextEvent s) = true) :
    step s = .refused .runEnded := by
  rw [step, handle, State.dropEvent_mode, if_pos hm]
  cases he : nextEvent s with
  | reset p => simp [he, notReset] at h
  | _ => rfl

/-! ### What a masked timer and a detached channel protect -/

/-- From `s` to `t` a masked timer stays masked, with the counter and PIN as they were (R111), and a detached channel
stays detached, with all that reports and polls write as it was (R113). -/
structure KeepsDisabled (s t : State) : Prop where
  masked : s.timerIe = false → t.timerIe = false ∧ t.tick = s.tick ∧ t.pin = s.pin
  detached : s.chanAttached = false →
    t.chanAttached = false ∧ t.level = s.level ∧ t.outBuf = s.outBuf ∧ t.returns = s.returns

theorem KeepsDisabled.refl (s : State) : KeepsDisabled s s :=
  ⟨fun h => ⟨h, rfl, rfl⟩, fun h => ⟨h, rfl, rfl, rfl⟩⟩

theorem KeepsDisabled.dropEvent (s : State) : KeepsDisabled s s.dropEvent :=
  ⟨fun h => ⟨h, rfl, rfl⟩, fun h => ⟨h, rfl, rfl, rfl⟩⟩

theorem KeepsDisabled.trans (hst : KeepsDisabled s t) (htu : KeepsDisabled t u) : KeepsDisabled s u where
  masked h := by
    obtain ⟨hie, htick, hpin⟩ := hst.masked h
    obtain ⟨hie', htick', hpin'⟩ := htu.masked hie
    exact ⟨hie', htick'.trans htick, hpin'.trans hpin⟩
  detached h := by
    obtain ⟨hchan, hlevel, hout, hret⟩ := hst.detached h
    obtain ⟨hchan', hlevel', hout', hret'⟩ := htu.detached hchan
    exact ⟨hchan', hlevel'.trans hlevel, hout'.trans hout, hret'.trans hret⟩

/-- A foreground operation needs the channel, so only the masked timer is left to look at. -/
theorem KeepsDisabled.of_foreground (hf : s.foregroundEnabled = true) (hie : t.timerIe = s.timerIe)
    (htick : t.tick = s.tick) (hpin : t.pin = s.pin) : KeepsDisabled s t :=
  ⟨fun h => ⟨hie.trans h, htick, hpin⟩, fun h => absurd hf (not_foregroundEnabled_of_detached h)⟩

/-- A TICK needs the timer, and writes nothing that reports and polls write. -/
theorem KeepsDisabled.of_tick (hen : s.tickEnabled = true) : KeepsDisabled s (tickBody s) := by
  refine ⟨fun h => absurd hen (not_tickEnabled_of_masked h), fun h => ?_⟩
  rw [tickBody_frame]
  exact ⟨h, rfl, rfl, rfl⟩

theorem exec_keepsDisabled (hx : exec i s = .next t) : KeepsDisabled s t := by
  cases i with
  | enterBootloader => obtain ⟨hf, rfl⟩ := exec_enterBootloader_next.1 hx; exact .of_foreground hf rfl rfl rfl
  | setLevel => obtain ⟨hf, rfl⟩ := exec_setLevel_next.1 hx; exact .of_foreground hf rfl rfl rfl
  | getReport => obtain ⟨hf, rfl⟩ := exec_getReport_next.1 hx; exact .of_foreground hf rfl rfl rfl
  | tick => obtain ⟨hen, rfl⟩ := exec_tick_next.1 hx; exact .of_tick hen
  | h1a => obtain ⟨-, rfl⟩ := exec_h1a_next.1 hx; exact ⟨fun _ => ⟨rfl, rfl, rfl⟩, fun h => ⟨h, rfl, rfl, rfl⟩⟩
  | h1b => obtain ⟨-, rfl⟩ := exec_h1b_next.1 hx; exact ⟨fun h => ⟨h, rfl, rfl⟩, fun h => ⟨h, rfl, rfl, rfl⟩⟩
  | h2 => obtain ⟨-, rfl⟩ := exec_h2_next.1 hx; exact ⟨fun h => ⟨h, rfl, rfl⟩, fun _ => ⟨rfl, rfl, rfl, rfl⟩⟩
  | h3 => obtain ⟨-, rfl⟩ := exec_h3_next.1 hx; exact ⟨fun h => ⟨h, rfl, rfl⟩, fun h => ⟨h, rfl, rfl, rfl⟩⟩
  | h4 => obtain ⟨-, rfl⟩ := exec_h4_next.1 hx; exact ⟨fun h => ⟨h, rfl, rfl⟩, fun h => ⟨h, rfl, rfl, rfl⟩⟩

theorem step_keepsDisabled (he : notReset (nextEvent s) = true) (h : step s = .next t) : KeepsDisabled s t := by
  refine (KeepsDisabled.dropEvent s).trans ?_
  cases (step_next h).2 with
  | reset p hreset => simp [hreset, notReset] at he
  | tick _ hx => exact exec_keepsDisabled hx
  | command _ _ _ _ _ hx => exact exec_keepsDisabled hx
  | short _ _ hf _ ht => subst ht; exact .of_foreground hf rfl rfl rfl
  | poll _ hx => exact exec_keepsDisabled hx
  | handoff _ _ _ hx => exact exec_keepsDisabled hx
  | nothing _ ht => subst ht; exact .refl _

/-- The steps of a run whose list holds no reset take no reset, since each step only shortens the list. -/
theorem runSteps_keepsDisabled {n : Nat} (hes : s.inputs.all notReset = true) (h : runSteps n s = .next t) :
    KeepsDisabled s t := by
  induction n generalizing s with
  | zero => cases h; exact .refl _
  | succ n ih =>
    obtain ⟨v, hstep, hrun⟩ := runSteps_succ_next.1 h
    have hrest : v.inputs.all notReset = true := by
      rw [step_inputs hstep, List.all_eq_true]
      exact fun e he => List.all_eq_true.1 hes e (List.mem_of_mem_tail he)
    exact (step_keepsDisabled (notReset_nextEvent_of_all hes) hstep).trans (ih hrest hrun)

end Handoff

/-! ### The obligations -/

/-- Settles O34: the exact state after H1A, whose timer a run without a reset keeps masked. -/
theorem h1AMasksTheTimer : Obligations.H1AMasksTheTimer := by
  intro s hmode hlog
  refine ⟨_, exec_h1a_next.2 ⟨⟨hmode, hlog⟩, rfl⟩, State.emit_of_hlog (s := s.maskTimer) _ hlog, ?_⟩
  intro n es u hes hrun
  obtain ⟨hie, htick, hpin⟩ := (runSteps_keepsDisabled hes hrun).masked rfl
  exact ⟨eq_false_of_ne_true (not_tickEnabled_of_masked hie), htick, hpin⟩

/-- Settles O36: the exact state after H2, whose channel a run without a reset keeps detached, and no foreground
operation occurs without the channel. -/
theorem h2DetachesTheChannel : Obligations.H2DetachesTheChannel := by
  intro s hmode hlog
  refine ⟨_, exec_h2_next.2 ⟨⟨hmode, hlog⟩, rfl⟩, State.emit_of_hlog (s := s.detachChannel) _ hlog, ?_⟩
  intro n es u hes hrun
  obtain ⟨hchan, hlevel, hout, hret⟩ := (runSteps_keepsDisabled hes hrun).detached rfl
  exact ⟨hchan, hlevel, hout, hret, fun i v hi hx =>
    not_foregroundEnabled_of_detached hchan (foregroundEnabled_of_exec hi hx)⟩

/-- Settles O39: each step is the shared operation at its place in the log, the other foreground operations need
MODE = Running, and the invariant ties Transferred to a log of five events. -/
theorem handoffStepsOnlyInOrder : Obligations.HandoffStepsOnlyInOrder := by
  intro s
  refine ⟨fun i k hindex => ⟨exec_handoff_occurs_iff hindex, fun t => exec_handoff_hlog hindex⟩,
    fun hmode i v hi hx => ?_, StateInv.hlog_of_transferred⟩
  exact not_foregroundEnabled_of_quiescing hmode (foregroundEnabled_of_exec hi hx)

/-- Settles O35: the exact state after H1B. -/
theorem h1BStopsTheTimerClock : Obligations.H1BStopsTheTimerClock := by
  intro s hmode hlog
  exact exec_h1b_next.2 ⟨⟨hmode, hlog⟩, (State.emit_of_hlog (s := s.stopTimer) _ hlog).symm⟩

/-- Settles O37: the exact state after H3; the log of three events says that the timer was masked before, and GIE alone
keeps TickEnabled false after. -/
theorem h3DisablesInterrupts : Obligations.H3DisablesInterrupts := by
  intro s hmode hlog
  refine ⟨_, exec_h3_next.2 ⟨⟨hmode, hlog⟩, rfl⟩, State.emit_of_hlog (s := s.disableInterrupts) _ hlog,
    fun hinv => ?_, ?_⟩
  · have hmasked : s.timerIe = false := by simpa [hlog] using hinv.timerIe
    exact eq_false_of_ne_true (not_tickEnabled_of_masked hmasked)
  · simp [State.tickEnabled]

/-- Settles O38: the exact state after H4, from which every event but a reset is refused. -/
theorem h4TransfersControl : Obligations.H4TransfersControl := by
  intro s hmode hlog
  refine ⟨_, exec_h4_next.2 ⟨⟨hmode, hlog⟩, rfl⟩,
    State.emit_of_hlog (s := (s.writeMode .transferred).writeHostPc Config.bootEntry) _ hlog, fun es hes => ?_⟩
  exact step_of_transferred rfl (notReset_nextEvent hes)

end Sys2Proof.Machine
end

section
/-! Proofs about exceptions: the table of exception causes is empty (R125). The only faults of the model are those of the
byte accesses, and the one operation with byte accesses, GET_REPORT, writes OUT at addresses that exist. -/

namespace Sys2Proof.Machine

section NoFault

variable {i : Instr} {e : Event} {s : State} {o : Outcome} {f : Fault}

/-! ### The shared operations -/

/-- A next state is not a fault. -/
theorem next_ne_fault {t : State} : (.next t : Outcome) ≠ .fault f := nofun

/-- A refusal is not a fault. -/
theorem refused_ne_fault {r : Refusal} : (.refused r : Outcome) ≠ .fault f := nofun

theorem whenForeground_ne_fault (h : o ≠ .fault f) : whenForeground s o ≠ .fault f := by
  unfold whenForeground
  split
  · exact h
  · exact refused_ne_fault

theorem takeTickInterrupt_ne_fault {handler : State → State} : takeTickInterrupt handler s ≠ .fault f := by
  unfold takeTickInterrupt
  split
  · exact next_ne_fault
  · exact refused_ne_fault

theorem handoffStep_ne_fault {before : List HandoffEvent} {ev : HandoffEvent} {effect : State → State} :
    handoffStep before ev effect s ≠ .fault f := by
  unfold handoffStep
  split
  · exact next_ne_fault
  · exact refused_ne_fault

/-- The eight writes of GET_REPORT all succeed, so its fault branch is never reached (R30, R95). -/
theorem execGetReport_ne_fault : execGetReport s ≠ .fault f := by
  rw [execGetReport_eq]
  exact whenForeground_ne_fault next_ne_fault

/-! ### From one operation to one event -/

theorem exec_ne_fault : exec i s ≠ .fault f := by
  cases i with
  | enterBootloader => exact whenForeground_ne_fault next_ne_fault
  | setLevel => exact whenForeground_ne_fault next_ne_fault
  | tick => exact takeTickInterrupt_ne_fault
  | getReport => exact execGetReport_ne_fault
  | h1a => exact handoffStep_ne_fault
  | h1b => exact handoffStep_ne_fault
  | h2 => exact handoffStep_ne_fault
  | h3 => exact handoffStep_ne_fault
  | h4 => exact handoffStep_ne_fault

/-- A buffer that is no command is rejected or refused by its length (R93, R94). -/
theorem deliver_ne_fault {buf : List Byte} : deliver buf s ≠ .fault f := by
  unfold deliver
  split
  · exact exec_ne_fault
  · exact next_ne_fault
  · exact refused_ne_fault

theorem foregroundTurn_ne_fault : foregroundTurn s ≠ .fault f := by
  unfold foregroundTurn
  split
  · split
    · exact exec_ne_fault
    · exact refused_ne_fault
  · exact next_ne_fault

theorem handleLive_ne_fault : handleLive e s ≠ .fault f := by
  cases e with
  | timer =>
    rw [handleLive]
    split
    · exact exec_ne_fault
    · exact next_ne_fault
  | deliver buf =>
    rw [handleLive]
    split
    · exact deliver_ne_fault
    · exact next_ne_fault
  | poll =>
    rw [handleLive]
    split
    · exact exec_ne_fault
    · exact next_ne_fault
  | foreground => exact foregroundTurn_ne_fault
  | channel c => exact next_ne_fault
  | reset p => exact next_ne_fault

theorem handleEnded_ne_fault : handleEnded e s ≠ .fault f := by
  cases e with
  | reset p => exact next_ne_fault
  | _ => exact refused_ne_fault

theorem handle_ne_fault : handle e s ≠ .fault f := by
  unfold handle
  split
  · exact handleEnded_ne_fault
  · exact handleLive_ne_fault

end NoFault

/-! ### The obligation -/

/-- Settles O11: a step handles one event, and no event, whatever operation it selects, ends in a fault. -/
theorem stepNeverFaults : Obligations.StepNeverFaults :=
  fun _ _ => handle_ne_fault

end Sys2Proof.Machine
end

section
/-! Proofs about the two directions of the report format (R50 to R55) and about the opcode table's packing W of a report
(R52): the command of a 64-bit word, and that such a word runs next when it is delivered. -/

namespace Sys2Proof.Machine

section Encoding

variable {b0 b1 b2 b3 b4 b5 b6 b7 : Byte} {i : Instr} {s : State}

/-! ### Encoding and decoding -/

/-- The side condition of SET_LEVEL (R55) is that its first two bytes fail the magic test. -/
theorem setLevel_wellFormed_iff :
    (Instr.setLevel b0 b1 b2 b3 b4 b5 b6 b7).wellFormed = true ↔ ¬(b0 = 0xAA ∧ b1 = 0xBB) := by
  rw [Instr.wellFormed, Bool.not_eq_true', ← Bool.not_eq_true, isMagic_iff]

theorem decode_encode {buf : List Byte} (hwf : i.wellFormed = true) (henc : encode i = some buf) :
    decode buf = .ok i := by
  cases i with
  | enterBootloader =>
    cases henc
    exact decode_report.trans (congrArg _ (decodeReport_of_magic ⟨rfl, rfl⟩))
  | setLevel =>
    cases henc
    exact decode_report.trans (congrArg _ (decodeReport_of_not_magic (setLevel_wellFormed_iff.1 hwf)))
  | _ => cases henc

/-- The rows with an encoding are the two report commands (R60), and it is one report long (R50). -/
theorem encode_of_isReport (h : i.isReport = true) : ∃ buf, encode i = some buf ∧ buf.length = 8 := by
  cases i with
  | enterBootloader => exact ⟨_, rfl, Laws.EncodedLength.enterBootloader _ _ _ _ _ _ _ rfl⟩
  | setLevel => exact ⟨_, rfl, Laws.EncodedLength.setLevel _ _ _ _ _ _ _ _ _ rfl⟩
  | _ => cases h

/-- What the decoder makes of eight bytes is a well-formed report command that is encoded in these bytes. -/
theorem encode_decodeReport (b0 b1 b2 b3 b4 b5 b6 b7 : Byte) :
    (decodeReport b0 b1 b2 b3 b4 b5 b6 b7).wellFormed = true ∧
      (decodeReport b0 b1 b2 b3 b4 b5 b6 b7).isReport = true ∧
      encode (decodeReport b0 b1 b2 b3 b4 b5 b6 b7) = some [b0, b1, b2, b3, b4, b5, b6, b7] := by
  by_cases hmagic : b0 = 0xAA ∧ b1 = 0xBB
  · rw [decodeReport_of_magic hmagic]
    obtain ⟨rfl, rfl⟩ := hmagic
    exact ⟨rfl, rfl, rfl⟩
  · rw [decodeReport_of_not_magic hmagic]
    exact ⟨setLevel_wellFormed_iff.2 hmagic, rfl, rfl⟩

/-! ### The packing W of the opcode table -/

/-- Byte `k` of the packing W (R52): bits `8k + 7` to `8k` of the word. -/
def packedByte (w k : Nat) : Byte := BitVec.ofNat 8 (w / 256 ^ k)

theorem packedByte_toNat (w k : Nat) : (packedByte w k).toNat = w / 256 ^ k % 256 := BitVec.toNat_ofNat ..

theorem tableBytes_64 {w : Nat} (h : w < 2 ^ 64) :
    tableBytes 64 w = [packedByte w 0, packedByte w 1, packedByte w 2, packedByte w 3,
      packedByte w 4, packedByte w 5, packedByte w 6, packedByte w 7] := by
  have hbytes : tableBytes 64 w = wordBytes 8 w := by
    rw [tableBytes, if_neg (by decide), Nat.mod_eq_of_lt h]
    rfl
  rw [hbytes]
  simp [wordBytes, packedByte, Nat.div_div_eq_div_mul]

/-- The command of a 64-bit word of the opcode table. -/
def packedReport (w : Nat) : Instr :=
  decodeReport (packedByte w 0) (packedByte w 1) (packedByte w 2) (packedByte w 3)
    (packedByte w 4) (packedByte w 5) (packedByte w 6) (packedByte w 7)

theorem decode_tableBytes_64 {w : Nat} (h : w < 2 ^ 64) : decode (tableBytes 64 w) = .ok (packedReport w) := by
  rw [tableBytes_64 h]
  rfl

theorem decodeTableWord_64 {w : Nat} (h : w < 2 ^ 64) : decodeTableWord 64 w = some (packedReport w) := by
  rw [decodeTableWord, decode_tableBytes_64 h]

/-- The table's match and mask say what the magic test says of the first two bytes of the packing. -/
theorem match_mask_iff (w : Nat) :
    w &&& 0xFFFF = 0xBBAA ↔ packedByte w 0 = 0xAA ∧ packedByte w 1 = 0xBB := by
  have hmask : w &&& 0xFFFF = w % 2 ^ 16 := Nat.and_two_pow_sub_one_eq_mod w 16
  have hmagic0 : (0xAA : Byte).toNat = 0xAA := rfl
  have hmagic1 : (0xBB : Byte).toNat = 0xBB := rfl
  rw [hmask, ← BitVec.toNat_inj, ← BitVec.toNat_inj, packedByte_toNat, packedByte_toNat, hmagic0, hmagic1]
  omega

/-! ### A word put where step fetches -/

theorem step_withFetchWord (s : State) (nbits w : Nat) :
    step (s.withFetchWord nbits w) = handle (.deliver (tableBytes nbits w)) s := rfl

theorem deliver_of_decode {buf : List Byte} (h : decode buf = .ok i) : deliver buf s = exec i s := by
  rw [deliver, h]

end Encoding

/-! ### The obligations -/

/-- Settles O1: a report command has an encoding of one report, and well-formedness keeps it from being read as the other
command. -/
theorem decodeEncodeRoundTrip : Obligations.DecodeEncodeRoundTrip := by
  intro i hwf hreport
  obtain ⟨buf, henc, hlen⟩ := encode_of_isReport hreport
  exact ⟨buf, henc, hlen, decode_encode hwf henc⟩

/-- Settles O2: only eight bytes decode, and either answer of the magic test keeps all of them. -/
theorem encodeDecodeRoundTrip : Obligations.EncodeDecodeRoundTrip := by
  intro buf i hdec
  obtain ⟨b0, b1, b2, b3, b4, b5, b6, b7, rfl, rfl⟩ := decode_eq_ok hdec
  exact encode_decodeReport b0 b1 b2 b3 b4 b5 b6 b7

/-- Settles O4: match and mask are the magic test on the packed bytes, and byte 2 of the packing is bits 23 to 16. -/
theorem opcodeTableMatchesDecoder : Obligations.OpcodeTableMatchesDecoder := by
  intro w hw
  refine ⟨fun hmatch => ?_, fun hmatch => ?_⟩
  · exact ⟨_, _, _, _, _, _,
      (decodeTableWord_64 hw).trans (congrArg some (decodeReport_of_magic ((match_mask_iff w).1 hmatch)))⟩
  · have hmagic := fun h => hmatch ((match_mask_iff w).2 h)
    refine ⟨_, _, _, _, _, _, _, _,
      (decodeTableWord_64 hw).trans (congrArg some (decodeReport_of_not_magic hmagic)), ?_⟩
    rw [packedByte_toNat, Nat.shiftRight_eq_div_pow]
    rfl

/-- Settles O5: the rows of V8, computed. -/
theorem vectorReportsDecode : Obligations.VectorReportsDecode :=
  ⟨rfl, rfl, rfl, rfl, rfl⟩

/-- Settles O9: the word is delivered as one report, which a running block decodes and runs. -/
theorem fetchedWordRunsNext : Obligations.FetchedWordRunsNext := by
  intro s w hmode hchan hw
  refine ⟨packedReport w, decodeTableWord_64 hw, ?_⟩
  rw [step_withFetchWord, handle_deliver _ (s.foregroundEnabled_iff.2 ⟨hmode, hchan⟩),
    deliver_of_decode (decode_tableBytes_64 hw)]

end Sys2Proof.Machine
end

section
/-! Proofs about single operations: one inversion for all nine of them, which says when an operation occurs and what it
does, and from it what each leaves as it was (R10 to R20). -/

namespace Sys2Proof.Machine

section Operations

variable {i : Instr} {s t : State}

/-! ### The frame of a tick, field by field -/

@[simp] theorem tickBody_level (s : State) : (tickBody s).level = s.level := by rw [tickBody_eq]
@[simp] theorem tickBody_mode (s : State) : (tickBody s).mode = s.mode := by rw [tickBody_eq]
@[simp] theorem tickBody_timerIe (s : State) : (tickBody s).timerIe = s.timerIe := by rw [tickBody_eq]
@[simp] theorem tickBody_timerRun (s : State) : (tickBody s).timerRun = s.timerRun := by rw [tickBody_eq]
@[simp] theorem tickBody_chanAttached (s : State) : (tickBody s).chanAttached = s.chanAttached := by rw [tickBody_eq]
@[simp] theorem tickBody_gie (s : State) : (tickBody s).gie = s.gie := by rw [tickBody_eq]
@[simp] theorem tickBody_hlog (s : State) : (tickBody s).hlog = s.hlog := by rw [tickBody_eq]
@[simp] theorem tickBody_hostPc (s : State) : (tickBody s).hostPc = s.hostPc := by rw [tickBody_eq]
@[simp] theorem tickBody_outBuf (s : State) : (tickBody s).outBuf = s.outBuf := by rw [tickBody_eq]
@[simp] theorem tickBody_returns (s : State) : (tickBody s).returns = s.returns := by rw [tickBody_eq]
@[simp] theorem tickBody_inputs (s : State) : (tickBody s).inputs = s.inputs := by rw [tickBody_eq]

theorem tickBody_pinDriven (s : State) : (tickBody s).pinDriven =
    (s.pinDriven || decide (s.tick.toNat = 15 ∨ s.level.toNat < s.tick.toNat + 1)) := by rw [tickBody_eq]

/-- PIN has an observable value after a tick that wrote it, and otherwise keeps the one it had (R13). -/
theorem tickBody_pinObserved (s : State) :
    (tickBody s).pinObserved =
      if s.tick.toNat = 15 ∨ s.level.toNat < s.tick.toNat + 1 then some (tickBody s).pin else s.pinObserved := by
  by_cases hwritten : s.tick.toNat = 15 ∨ s.level.toNat < s.tick.toNat + 1
  · rw [if_pos hwritten, State.pinObserved, tickBody_pinDriven, decide_eq_true hwritten, Bool.or_true, if_pos rfl]
  · obtain ⟨hmid, hle⟩ := not_or.1 hwritten
    rw [if_neg hwritten, State.pinObserved, tickBody_pinDriven, decide_eq_false hwritten, Bool.or_false,
      tickBody_pin_of_midCycle hmid, if_neg hle, State.pinObserved]

/-! ### When an operation occurs, and what it does -/

/-- When an operation can occur (R71, R98, R116). -/
def operationEnabled : Instr → State → Prop
  | .enterBootloader _ _ _ _ _ _, s => s.foregroundEnabled = true
  | .setLevel _ _ _ _ _ _ _ _, s => s.foregroundEnabled = true
  | .getReport, s => s.foregroundEnabled = true
  | .tick, s => s.tickEnabled = true
  | .h1a, s => s.mode = .quiescing ∧ s.hlog = handoffLog.take 0
  | .h1b, s => s.mode = .quiescing ∧ s.hlog = handoffLog.take 1
  | .h2, s => s.mode = .quiescing ∧ s.hlog = handoffLog.take 2
  | .h3, s => s.mode = .quiescing ∧ s.hlog = handoffLog.take 3
  | .h4, s => s.mode = .quiescing ∧ s.hlog = handoffLog.take 4

/-- What an operation does where it occurs. -/
def operationEffect : Instr → State → State
  | .enterBootloader _ _ _ _ _ _, s => s.writeMode .quiescing
  | .setLevel _ _ lvl _ _ _ _ _, s => s.writeLevel (clampLevel lvl)
  | .getReport, s => (s.writeOut statusOut).giveBack (.report 8 false)
  | .tick, s => tickBody s
  | .h1a, s => s.maskTimer.emit .timerIrqMask
  | .h1b, s => s.stopTimer.emit .timerClockStop
  | .h2, s => s.detachChannel.emit .channelDetach
  | .h3, s => s.disableInterrupts.emit .globalIrqDisable
  | .h4, s => (transferControl s).emit (.transferControl Config.bootEntry)

/-- The inversion of `exec` for all nine operations. -/
theorem exec_next_iff : exec i s = .next t ↔ operationEnabled i s ∧ t = operationEffect i s := by
  cases i with
  | enterBootloader => exact exec_enterBootloader_next
  | setLevel => exact exec_setLevel_next
  | tick => exact exec_tick_next
  | getReport => exact exec_getReport_next
  | h1a => exact exec_h1a_next
  | h1b => exact exec_h1b_next
  | h2 => exact exec_h2_next
  | h3 => exact exec_h3_next
  | h4 => exact exec_h4_next

theorem exec_of_enabled (h : operationEnabled i s) : exec i s = .next (operationEffect i s) :=
  exec_next_iff.2 ⟨h, rfl⟩

theorem operationEnabled_of_index {k : Nat} (h : handoffIndex i = some k) :
    operationEnabled i s ↔ s.mode = .quiescing ∧ s.hlog = handoffLog.take k := by
  cases i <;> cases h <;> rfl

/-! ### What an operation leaves as it was -/

theorem operationEffect_level (h : ∀ m0 m1 lvl b3 b4 b5 b6 b7, i ≠ .setLevel m0 m1 lvl b3 b4 b5 b6 b7) :
    (operationEffect i s).level = s.level := by
  cases i with
  | setLevel => exact (h _ _ _ _ _ _ _ _ rfl).elim
  | tick => exact tickBody_level s
  | _ => rfl

theorem operationEffect_pwm (h : i ≠ .tick) :
    (operationEffect i s).tick = s.tick ∧ (operationEffect i s).pin = s.pin ∧
      (operationEffect i s).pinDriven = s.pinDriven := by
  cases i with
  | tick => exact absurd rfl h
  | _ => exact ⟨rfl, rfl, rfl⟩

theorem operationEffect_mode (h : ∀ b2 b3 b4 b5 b6 b7, i ≠ .enterBootloader b2 b3 b4 b5 b6 b7) (h4 : i ≠ .h4) :
    (operationEffect i s).mode = s.mode := by
  cases i with
  | enterBootloader => exact (h _ _ _ _ _ _ rfl).elim
  | h4 => exact absurd rfl h4
  | tick => exact tickBody_mode s
  | _ => rfl

theorem operationEffect_timerIe (h : i ≠ .h1a) : (operationEffect i s).timerIe = s.timerIe := by
  cases i with
  | h1a => exact absurd rfl h
  | tick => exact tickBody_timerIe s
  | _ => rfl

theorem operationEffect_timerRun (h : i ≠ .h1b) : (operationEffect i s).timerRun = s.timerRun := by
  cases i with
  | h1b => exact absurd rfl h
  | tick => exact tickBody_timerRun s
  | _ => rfl

theorem operationEffect_chanAttached (h : i ≠ .h2) : (operationEffect i s).chanAttached = s.chanAttached := by
  cases i with
  | h2 => exact absurd rfl h
  | tick => exact tickBody_chanAttached s
  | _ => rfl

theorem operationEffect_gie (h : i ≠ .h3) : (operationEffect i s).gie = s.gie := by
  cases i with
  | h3 => exact absurd rfl h
  | tick => exact tickBody_gie s
  | _ => rfl

theorem operationEffect_hlog (h : handoffIndex i = none) : (operationEffect i s).hlog = s.hlog := by
  cases i with
  | tick => exact tickBody_hlog s
  | enterBootloader => rfl
  | setLevel => rfl
  | getReport => rfl
  | _ => cases h

theorem operationEffect_hostPc (h : i ≠ .h4) : (operationEffect i s).hostPc = s.hostPc := by
  cases i with
  | h4 => exact absurd rfl h
  | tick => exact tickBody_hostPc s
  | _ => rfl

theorem operationEffect_outBuf_returns (h : i ≠ .getReport) :
    (operationEffect i s).outBuf = s.outBuf ∧ (operationEffect i s).returns = s.returns := by
  cases i with
  | getReport => exact absurd rfl h
  | tick => exact ⟨tickBody_outBuf s, tickBody_returns s⟩
  | _ => exact ⟨rfl, rfl⟩

theorem operationEffect_inputs : (operationEffect i s).inputs = s.inputs := by
  cases i with
  | tick => exact tickBody_inputs s
  | _ => rfl

/-- Space OUT has eight addresses (R30). -/
theorem memRead_of_ge (m : Memory) {a : Nat} (h : 8 ≤ a) : memRead m a = .error .noSuchAddress :=
  if_neg (Nat.not_lt.2 h)

theorem memRead_statusOut_padding {a : Nat} (h4 : 4 ≤ a) (h8 : a < 8) : memRead statusOut a = .ok 0x00 := by
  interval_cases a <;> rfl

/-! ### Operations where they do not occur -/

theorem whenForeground_of_disabled {o : Outcome} (h : ¬ s.foregroundEnabled = true) :
    whenForeground s o = .refused .foregroundDisabled := if_neg h

theorem exec_tick_of_disabled (h : ¬ s.tickEnabled = true) : exec .tick s = .refused .tickDisabled := if_neg h

theorem exec_foreground_of_disabled (hi : i.isReport = true ∨ i = .getReport) (h : ¬ s.foregroundEnabled = true) :
    exec i s = .refused .foregroundDisabled := by
  cases i with
  | enterBootloader => exact whenForeground_of_disabled h
  | setLevel => exact whenForeground_of_disabled h
  | getReport => exact whenForeground_of_disabled h
  | _ => simp [Instr.isReport] at hi

theorem exec_handoff_of_disabled {k : Nat} (hi : handoffIndex i = some k)
    (h : ¬(s.mode = .quiescing ∧ s.hlog = handoffLog.take k)) : exec i s = .refused .handoffOutOfOrder := by
  obtain ⟨e, f, -, -, hexec⟩ := exec_eq_handoffStep hi
  exact (hexec s).trans (if_neg h)

end Operations

/-! ### The obligations -/

/-- Settles O43: an operation that occurs has its effect, and the effect writes one operation's own elements. -/
theorem eachOperationWritesItsOwn : Obligations.EachOperationWritesItsOwn := by
  intro i s t hx
  obtain ⟨-, rfl⟩ := exec_next_iff.1 hx
  refine ⟨operationEffect_level, operationEffect_pwm, operationEffect_mode, operationEffect_timerIe,
    operationEffect_timerRun, operationEffect_chanAttached, operationEffect_gie, operationEffect_hlog,
    operationEffect_hostPc, fun hi => ?_, operationEffect_inputs⟩
  obtain ⟨hout, hret⟩ := operationEffect_outBuf_returns (s := s) hi
  exact ⟨hret, fun a => by rw [hout]⟩

/-- Settles O14: the second write of LEVEL covers the first, and no other element has changed between. -/
theorem lastSetLevelWins : Obligations.LastSetLevelWins := by
  intro s t m0 m1 a b3 b4 b5 b6 b7 n0 n1 b c3 c4 c5 c6 c7 hx
  obtain ⟨-, rfl⟩ := exec_setLevel_next.1 hx
  rfl

/-- Settles O15: the effect of the decode step, where R98 lets it occur. -/
theorem enterBootloaderSetsQuiescing : Obligations.EnterBootloaderSetsQuiescing := by
  intro s b2 b3 b4 b5 b6 b7 hmode hchan
  exact exec_enterBootloader_next.2 ⟨s.foregroundEnabled_iff.2 ⟨hmode, hchan⟩, rfl⟩

/-- Settles O16: GET_REPORT leaves `statusOut` in space OUT, read here byte by byte. -/
theorem getReportGivesStatusReport : Obligations.GetReportGivesStatusReport := by
  intro s hmode hchan
  refine ⟨_, exec_getReport_next.2 ⟨s.foregroundEnabled_iff.2 ⟨hmode, hchan⟩, rfl⟩, rfl,
    sameElements_giveBack_writeOut .., rfl, rfl, rfl, rfl, fun a => memRead_statusOut_padding, fun a ha => ?_⟩
  rw [memRead_of_ge _ ha, memRead_of_ge _ ha]

/-- Settles O17: R98's condition is the guard of all three operations. -/
theorem foregroundOnlyWhileRunning : Obligations.ForegroundOnlyWhileRunning := by
  intro s i hi hnot
  exact exec_foreground_of_disabled hi fun hf => hnot (s.foregroundEnabled_iff.1 hf)

/-- Settles O18: TickEnabled is TICK's guard, and the mode and the log are each hand-off step's. -/
theorem disabledOperationsRefusedByName : Obligations.DisabledOperationsRefusedByName := by
  intro s
  exact ⟨fun hnot => exec_tick_of_disabled fun hen => hnot (s.tickEnabled_iff.1 hen),
    fun i k => exec_handoff_of_disabled⟩

/-- Settles O25: the two branches of a tick that write PIN are the ones that record it. -/
theorem pinObservedFromFirstWrite : Obligations.PinObservedFromFirstWrite := by
  intro s t hx
  obtain ⟨-, rfl⟩ := exec_tick_next.1 hx
  exact tickBody_pinObserved s

end Sys2Proof.Machine
end

section
/-! Proofs about the invariant: it is kept by every operation, every event and every run, and it lets every event go
through for which the spec has a step (R24, R94, R120). -/

namespace Sys2Proof.Machine

section Invariant

variable {e : Event} {i : Instr} {k : Nat} {s t : State}

/-! ### The invariant by the place of the hand-off -/

/-- The invariant with the place `k` that the hand-off has reached as a number of its own. -/
structure InvAt (k : Nat) (s : State) : Prop where
  log : s.hlog = handoffLog.take k
  place : k ≤ 5
  timerIe : s.timerIe = decide (k < 1)
  timerRun : s.timerRun = decide (k < 2)
  chanAttached : s.chanAttached = decide (k < 3)
  gie : s.gie = decide (k < 4)
  running : s.mode = .running → k = 0
  transferred : s.mode = .transferred ↔ k = 5
  hostPc : s.hostPc = if k = 5 then some Config.bootEntry else none
  outBuf : Memory.wf s.outBuf = true

theorem StateInv.log_length_le (h : StateInv s) : s.hlog.length ≤ 5 := by
  have hlen : s.hlog.length = (handoffLog.take s.hlog.length).length := congrArg List.length h.log
  rw [List.length_take] at hlen
  exact hlen.trans_le (min_le_right ..)

theorem StateInv.invAt (h : StateInv s) : InvAt s.hlog.length s :=
  ⟨h.log, h.log_length_le, h.timerIe, h.timerRun, h.chanAttached, h.gie, h.running, h.transferred, h.hostPc, h.outBuf⟩

theorem InvAt.log_length (h : InvAt k s) : s.hlog.length = k := by
  rw [h.log, List.length_take]
  exact min_eq_left h.place

theorem InvAt.stateInv (h : InvAt k s) : StateInv s := by
  obtain rfl := h.log_length
  exact ⟨h.log, h.timerIe, h.timerRun, h.chanAttached, h.gie, h.running, h.transferred, h.hostPc, h.outBuf⟩

/-- The invariant reads neither the agents' list, nor LEVEL, TICK and PIN, nor what was handed back. -/
theorem InvAt.of_frame (h : InvAt k s) (hlog : t.hlog = s.hlog) (hie : t.timerIe = s.timerIe)
    (hrun : t.timerRun = s.timerRun) (hchan : t.chanAttached = s.chanAttached) (hgie : t.gie = s.gie)
    (hmode : t.mode = s.mode) (hpc : t.hostPc = s.hostPc) (hout : Memory.wf t.outBuf = true) : InvAt k t where
  log := hlog.trans h.log
  place := h.place
  timerIe := hie.trans h.timerIe
  timerRun := hrun.trans h.timerRun
  chanAttached := hchan.trans h.chanAttached
  gie := hgie.trans h.gie
  running := hmode ▸ h.running
  transferred := hmode ▸ h.transferred
  hostPc := hpc.trans h.hostPc
  outBuf := hout

theorem invAt_reset (p : Bool) (es : List Event) : InvAt 0 { State.resetWith p with inputs := es } where
  log := rfl
  place := Nat.zero_le 5
  timerIe := rfl
  timerRun := rfl
  chanAttached := rfl
  gie := rfl
  running := fun _ => rfl
  transferred := by simp [State.resetWith]
  hostPc := rfl
  outBuf := rfl

/-! ### Operations keep the invariant -/

theorem InvAt.place_of_running (h : InvAt k s) (hf : s.foregroundEnabled = true) : k = 0 :=
  h.running (s.foregroundEnabled_iff.1 hf).1

/-- The start of the hand-off (R92) leaves the place it starts from. -/
theorem InvAt.writeMode_quiescing (h : InvAt 0 s) : InvAt 0 (s.writeMode .quiescing) where
  __ := h
  running := by simp
  transferred := by simp

/-- An operation that is no hand-off step keeps the place. -/
theorem InvAt.effect_of_not_handoff (h : InvAt k s) (hen : operationEnabled i s) (hi : handoffIndex i = none) :
    InvAt k (operationEffect i s) := by
  cases i with
  | enterBootloader =>
    obtain rfl := h.place_of_running hen
    exact h.writeMode_quiescing
  | setLevel => exact h.of_frame rfl rfl rfl rfl rfl rfl rfl h.outBuf
  | tick =>
    exact h.of_frame (tickBody_hlog s) (tickBody_timerIe s) (tickBody_timerRun s) (tickBody_chanAttached s)
      (tickBody_gie s) (tickBody_mode s) (tickBody_hostPc s) ((tickBody_outBuf s).symm ▸ h.outBuf)
  | getReport => exact h.of_frame rfl rfl rfl rfl rfl rfl rfl statusOut_wf
  | _ => cases hi

/-- A hand-off step in order goes on to the next place (R116). -/
theorem InvAt.effect_of_handoff (h : InvAt k s) (hmode : s.mode = .quiescing) (hi : handoffIndex i = some k) :
    InvAt (k + 1) (operationEffect i s) := by
  obtain ⟨hlog, -, hie, hrun, hchan, hgie, -, -, hpc, hout⟩ := h
  have htake : (operationEffect i s).hlog = handoffLog.take (k + 1) :=
    exec_handoff_hlog hi (exec_of_enabled ((operationEnabled_of_index hi).2 ⟨hmode, hlog⟩))
  have hnotrun : s.mode = .running → k + 1 = 0 := fun h => by simp [hmode] at h
  have hnotend : s.mode ≠ .transferred := by simp [hmode]
  cases i with
  | h1a => cases hi; exact ⟨htake, by decide, rfl, hrun, hchan, hgie, hnotrun, iff_of_false hnotend nofun, hpc, hout⟩
  | h1b => cases hi; exact ⟨htake, by decide, hie, rfl, hchan, hgie, hnotrun, iff_of_false hnotend nofun, hpc, hout⟩
  | h2 => cases hi; exact ⟨htake, by decide, hie, hrun, rfl, hgie, hnotrun, iff_of_false hnotend nofun, hpc, hout⟩
  | h3 => cases hi; exact ⟨htake, by decide, hie, hrun, hchan, rfl, hnotrun, iff_of_false hnotend nofun, hpc, hout⟩
  | h4 => cases hi; exact ⟨htake, by decide, hie, hrun, hchan, hgie, nofun, iff_of_true rfl rfl, rfl, hout⟩
  | _ => cases hi

/-- A hand-off step that occurs is the one whose place the hand-off has reached. -/
theorem InvAt.place_of_handoff {j : Nat} (h : InvAt k s) (hen : operationEnabled i s) (hi : handoffIndex i = some j) :
    s.mode = .quiescing ∧ j = k := by
  obtain ⟨hmode, hlog⟩ := (operationEnabled_of_index hi).1 hen
  have hj : j ≤ 5 := by cases i <;> cases hi <;> decide
  have hlen : s.hlog.length = j := by rw [hlog, List.length_take]; exact min_eq_left hj
  exact ⟨hmode, hlen.symm.trans h.log_length⟩

theorem exec_keeps_inv (h : StateInv s) (hx : exec i s = .next t) : StateInv t := by
  obtain ⟨hen, rfl⟩ := exec_next_iff.1 hx
  cases hi : handoffIndex i with
  | none => exact (h.invAt.effect_of_not_handoff hen hi).stateInv
  | some j =>
    obtain ⟨hmode, rfl⟩ := h.invAt.place_of_handoff hen hi
    exact (h.invAt.effect_of_handoff hmode hi).stateInv

/-! ### Events, steps and runs keep the invariant -/

/-- The inversion of a handled event, without the agents' list. -/
theorem handle_next (h : handle e s = .next t) :
    (s.mode = .transferred → ∃ p, e = .reset p) ∧ StepCase e s t :=
  step_next (s := { s with inputs := e :: s.inputs }) h

theorem StateInv.withInputs (h : StateInv s) (es : List Event) : StateInv { s with inputs := es } :=
  ⟨h.log, h.timerIe, h.timerRun, h.chanAttached, h.gie, h.running, h.transferred, h.hostPc, h.outBuf⟩

theorem StateInv.giveBack (h : StateInv s) (r : Return) : StateInv (s.giveBack r) :=
  ⟨h.log, h.timerIe, h.timerRun, h.chanAttached, h.gie, h.running, h.transferred, h.hostPc, h.outBuf⟩

theorem stepCase_keeps_inv (h : StateInv s) (hcase : StepCase e s t) : StateInv t := by
  cases hcase with
  | reset p _ ht => subst ht; exact (invAt_reset p s.inputs).stateInv
  | tick _ hx => exact exec_keeps_inv h hx
  | command _ _ _ _ _ hx => exact exec_keeps_inv h hx
  | short _ _ _ _ ht => subst ht; exact h.giveBack .rejected
  | poll _ hx => exact exec_keeps_inv h hx
  | handoff _ _ _ hx => exact exec_keeps_inv h hx
  | nothing _ ht => subst ht; exact h

theorem handle_keeps_inv (h : StateInv s) (hx : handle e s = .next t) : StateInv t :=
  stepCase_keeps_inv h (handle_next hx).2

theorem step_keeps_inv (h : StateInv s) (hx : step s = .next t) : StateInv t :=
  stepCase_keeps_inv (h.withInputs s.inputs.tail) (step_next hx).2

theorem runSteps_keeps_inv {n : Nat} (h : StateInv s) (hx : runSteps n s = .next t) : StateInv t := by
  induction n generalizing s with
  | zero => cases hx; exact h
  | succ n ih =>
    obtain ⟨u, hstep, hrun⟩ := runSteps_succ_next.1 hx
    exact ih (step_keeps_inv h hstep) hrun

theorem runEvents_keeps_inv {es : List Event} (h : StateInv s) (hx : runEvents es s = .next t) : StateInv t :=
  runSteps_keeps_inv (h.withInputs es) hx

/-! ### What the invariant says of each mode -/

theorem StateInv.tickEnabled_of_running (h : StateInv s) (hm : s.mode = .running) : s.tickEnabled = true := by
  have hk := h.running hm
  have hie := h.timerIe
  have hrun := h.timerRun
  have hgie := h.gie
  rw [hk] at hie hrun hgie
  exact s.tickEnabled_iff.2 ⟨hie, hrun, hgie⟩

theorem StateInv.foregroundEnabled_of_running (h : StateInv s) (hm : s.mode = .running) :
    s.foregroundEnabled = true := by
  have hchan := h.chanAttached
  rw [h.running hm] at hchan
  exact s.foregroundEnabled_iff.2 ⟨hm, hchan⟩

/-- In Quiescing the hand-off step of the place reached is next, and occurs (R53, R116). -/
theorem InvAt.handoff_of_quiescing (h : InvAt k s) (hm : s.mode = .quiescing) :
    ∃ i, handoffIndex i = some k ∧ nextHandoff s.hlog = some i ∧ operationEnabled i s := by
  have hplace := h.place
  have hne : k ≠ 5 := fun h5 => by simp [h.transferred.2 h5] at hm
  have hindex : ∃ i, handoffIndex i = some k := by
    have hk : k = 0 ∨ k = 1 ∨ k = 2 ∨ k = 3 ∨ k = 4 := by omega
    rcases hk with rfl | rfl | rfl | rfl | rfl
    · exact ⟨.h1a, rfl⟩
    · exact ⟨.h1b, rfl⟩
    · exact ⟨.h2, rfl⟩
    · exact ⟨.h3, rfl⟩
    · exact ⟨.h4, rfl⟩
  obtain ⟨i, hi⟩ := hindex
  exact ⟨i, hi, h.log ▸ nextHandoff_take hi, (operationEnabled_of_index hi).2 ⟨hm, h.log⟩⟩

/-- The invariant implies the spec's own one (R24). -/
theorem StateInv.ruleR24 (h : StateInv s) : RuleR24 s where
  running hm := by
    obtain ⟨hie, hrun, hgie⟩ := s.tickEnabled_iff.1 (h.tickEnabled_of_running hm)
    exact ⟨hie, hrun, (s.foregroundEnabled_iff.1 (h.foregroundEnabled_of_running hm)).2, hgie,
      List.length_eq_zero_iff.1 (h.running hm)⟩
  transferred hm := by
    have hlen := h.transferred.1 hm
    have hie := h.timerIe
    have hrun := h.timerRun
    have hchan := h.chanAttached
    have hgie := h.gie
    rw [hlen] at hie hrun hchan hgie
    exact ⟨hie, hrun, hchan, hgie, h.hlog_of_transferred hm⟩
  log := h.log ▸ List.take_prefix _ _

end Invariant

/-! ### The obligations -/

/-- Settles O49: the one event of a step is a reset, an operation, or nothing the invariant reads. -/
theorem invariantKeptByStep : Obligations.InvariantKeptByStep :=
  fun _ _ => step_keeps_inv

/-- Settles O48: at reset the hand-off stands at its first place. -/
theorem invariantAtReset : Obligations.InvariantAtReset :=
  fun p es => (invAt_reset p es).stateInv

/-- Settles O50: the invariant holds at reset and is kept, and it implies R24. -/
theorem specInvariantsHoldInEveryRun : Obligations.SpecInvariantsHoldInEveryRun :=
  fun p es _ _ hrun => (runSteps_keeps_inv (invAt_reset p es).stateInv hrun).ruleR24

end Sys2Proof.Machine
end

section
/-! Proofs about single steps: the event a step takes, events that select no operation (R26, R98, R119), where a step
stops (R9, R94, R120), and what a step can do to MODE, the enables and PIN. -/

namespace Sys2Proof.Machine

section Steps

variable {e : Event} {i : Instr} {buf : List Byte} {s t : State}

/-! ### The event a step takes -/

theorem step_of_cons {rest : List Event} (h : s.inputs = e :: rest) :
    step s = handle e { s with inputs := rest } := by
  rw [step, nextEvent_cons s e rest h, State.dropEvent, h]
  rfl

theorem dropEvent_of_nil (h : s.inputs = []) : s.dropEvent = s := by
  rw [State.dropEvent, h, List.tail_nil, ← h]

/-- A running block that is delivered a buffer runs DELIVER. -/
theorem step_of_delivery {rest : List Event} (h : s.inputs = .deliver buf :: rest) (hm : s.mode = .running)
    (hchan : s.chanAttached = true) : step s = deliver buf { s with inputs := rest } := by
  have hf : State.foregroundEnabled { s with inputs := rest } = true := s.foregroundEnabled_iff.2 ⟨hm, hchan⟩
  rw [step_of_cons h, handle_deliver buf hf]

theorem step_of_nil (h : s.inputs = []) : step s = handle (nextEvent s) s := by
  rw [step, dropEvent_of_nil h]

theorem nextEvent_of_nil (h : s.inputs = []) :
    nextEvent s = if s.mode = .quiescing then .foreground else .timer := by
  rw [nextEvent, h]

/-- A delivery is never the default, so it stands at the head of the list. -/
theorem inputs_of_nextEvent_deliver (h : nextEvent s = .deliver buf) : ∃ rest, s.inputs = .deliver buf :: rest := by
  cases hin : s.inputs with
  | nil =>
    rw [nextEvent_of_nil hin] at h
    split at h <;> cases h
  | cons e rest =>
    rw [nextEvent_cons s e rest hin] at h
    exact ⟨rest, h ▸ rfl⟩

/-! ### Events that select no operation -/

theorem handle_timer_of_disabled (hm : s.mode ≠ .transferred) (h : ¬ s.tickEnabled = true) :
    handle .timer s = .next s :=
  (handle_of_not_transferred hm).trans (if_neg h)

theorem handle_deliver_of_disabled (hm : s.mode ≠ .transferred) (h : ¬ s.foregroundEnabled = true) :
    handle (.deliver buf) s = .next s :=
  (handle_of_not_transferred hm).trans (if_neg h)

theorem handle_poll_of_disabled (hm : s.mode ≠ .transferred) (h : ¬ s.foregroundEnabled = true) :
    handle .poll s = .next s :=
  (handle_of_not_transferred hm).trans (if_neg h)

theorem handle_channel (hm : s.mode ≠ .transferred) (c : ChannelEvent) : handle (.channel c) s = .next s :=
  handle_of_not_transferred hm

theorem handle_foreground_of_running (hm : s.mode = .running) : handle .foreground s = .next s := by
  rw [handle_of_not_transferred (by simp [hm]), handleLive, foregroundTurn, if_neg (by simp [hm])]

theorem handle_reset (p : Bool) : handle (.reset p) s = .next (resetEvent p s) := by
  unfold handle
  split <;> rfl

/-! ### Buffers that are no report -/

theorem deliver_short (h : buf.length < 8) : deliver buf s = .next (s.giveBack .rejected) := by
  rw [deliver, decode_short h]

theorem deliver_long (h : 8 < buf.length) : deliver buf s = .refused .longBuffer := by
  rw [deliver, decode_long h]

/-! ### Every event with a meaning goes through -/

theorem deliver_progress (hf : s.foregroundEnabled = true) (h : buf.length ≤ 8) : ∃ t, deliver buf s = .next t := by
  rcases h.lt_or_eq with hshort | hlen
  · exact ⟨_, deliver_short hshort⟩
  · obtain ⟨b0, b1, b2, b3, b4, b5, b6, b7, rfl⟩ := eight_of_length hlen
    by_cases hmagic : b0 = 0xAA ∧ b1 = 0xBB
    · exact ⟨_, deliver_of_magic_next hf hmagic⟩
    · exact ⟨_, deliver_of_not_magic_next hf hmagic⟩

/-- Before the transfer the one event of the invariant without a step is a long buffer that a running block is given. -/
theorem handle_progress (h : StateInv s) (hm : s.mode ≠ .transferred)
    (hbuf : ∀ buf, e = .deliver buf → s.mode = .running → buf.length ≤ 8) : ∃ t, handle e s = .next t := by
  cases e with
  | timer =>
    by_cases hen : s.tickEnabled = true
    · exact ⟨_, (handle_timer hm hen).trans (exec_tick_next.2 ⟨hen, rfl⟩)⟩
    · exact ⟨_, handle_timer_of_disabled hm hen⟩
  | deliver buf =>
    by_cases hf : s.foregroundEnabled = true
    · rw [handle_deliver buf hf]
      exact deliver_progress hf (hbuf buf rfl (s.foregroundEnabled_iff.1 hf).1)
    · exact ⟨_, handle_deliver_of_disabled hm hf⟩
  | poll =>
    by_cases hf : s.foregroundEnabled = true
    · exact ⟨_, (handle_poll hf).trans (exec_getReport_next.2 ⟨hf, rfl⟩)⟩
    · exact ⟨_, handle_poll_of_disabled hm hf⟩
  | foreground =>
    cases hmode : s.mode with
    | running => exact ⟨_, handle_foreground_of_running hmode⟩
    | quiescing =>
      obtain ⟨i, -, hnext, hen⟩ := h.invAt.handoff_of_quiescing hmode
      exact ⟨_, (handle_foreground hmode hnext).trans (exec_of_enabled hen)⟩
    | transferred => exact absurd hmode hm
  | channel c => exact ⟨_, handle_channel hm c⟩
  | reset p => exact ⟨_, handle_reset p⟩

/-- A running block is given a long buffer next (R94). -/
def LongBufferNext (s : State) : Prop :=
  s.mode = .running ∧ ∃ buf rest, s.inputs = .deliver buf :: rest ∧ 8 < buf.length

theorem step_of_longBufferNext (h : StateInv s) (hlong : LongBufferNext s) : step s = .refused .longBuffer := by
  obtain ⟨hrun, buf, rest, hin, hlen⟩ := hlong
  obtain ⟨-, hchan⟩ := s.foregroundEnabled_iff.1 (h.foregroundEnabled_of_running hrun)
  rw [step_of_delivery hin hrun hchan, deliver_long hlen]

theorem step_progress (h : StateInv s) (hm : s.mode ≠ .transferred) (hlong : ¬ LongBufferNext s) :
    ∃ t, step s = .next t := by
  refine handle_progress (s := s.dropEvent) (h.withInputs _) hm fun buf hnext hrun => ?_
  obtain ⟨rest, hin⟩ := inputs_of_nextEvent_deliver hnext
  exact Nat.not_lt.1 fun hlen => hlong ⟨hrun, buf, rest, hin, hlen⟩

/-! ### What a step can do to PIN -/

theorem isReport_of_decode (h : decode buf = .ok i) : i.isReport = true := by
  obtain ⟨b0, b1, b2, b3, b4, b5, b6, b7, -, rfl⟩ := decode_eq_ok h
  exact (encode_decodeReport b0 b1 b2 b3 b4 b5 b6 b7).2.1

theorem ne_tick_of_isReport (h : i.isReport = true) : i ≠ .tick := by
  rintro rfl
  cases h

theorem ne_tick_of_nextHandoff {log : List HandoffEvent} (h : nextHandoff log = some i) : i ≠ .tick := by
  rintro rfl
  obtain ⟨k, hk, -⟩ := nextHandoff_some h
  cases hk

/-- What is written of the counter and of PIN is the same in both states. -/
structure SamePwm (s t : State) : Prop where
  tick : t.tick = s.tick
  pin : t.pin = s.pin
  pinDriven : t.pinDriven = s.pinDriven

theorem SamePwm.pinObserved (h : SamePwm s t) : t.pinObserved = s.pinObserved := by
  rw [State.pinObserved, State.pinObserved, h.pin, h.pinDriven]

theorem exec_samePwm (hi : i ≠ .tick) (hx : exec i s = .next t) : SamePwm s t := by
  obtain ⟨-, rfl⟩ := exec_next_iff.1 hx
  obtain ⟨htick, hpin, hdriven⟩ := operationEffect_pwm (s := s) hi
  exact ⟨htick, hpin, hdriven⟩

/-- The counter and PIN are written by a reset and by a tick alone (R13, R70). -/
theorem stepCase_pwm (h : StepCase e s t) :
    (∃ p, e = .reset p ∧ t = resetEvent p s) ∨ (e = .timer ∧ s.tickEnabled = true ∧ t = tickBody s) ∨
      SamePwm s t := by
  cases h with
  | reset p he ht => exact .inl ⟨p, he, ht⟩
  | tick he hx => exact .inr (.inl ⟨he, exec_tick_next.1 hx⟩)
  | command _ _ _ _ hd hx => exact .inr (.inr (exec_samePwm (ne_tick_of_isReport (isReport_of_decode hd)) hx))
  | short _ _ _ _ ht => subst ht; exact .inr (.inr ⟨rfl, rfl, rfl⟩)
  | poll _ hx => exact .inr (.inr (exec_samePwm (by simp) hx))
  | handoff _ _ hi hx => exact .inr (.inr (exec_samePwm (ne_tick_of_nextHandoff hi) hx))
  | nothing _ ht => subst ht; exact .inr (.inr ⟨rfl, rfl, rfl⟩)

/-- A tick leaves PIN ON where it lights it at the boundary, or finds it ON in mid-cycle at a level not passed. -/
theorem tickBody_pin_true_iff : (tickBody s).pin = true ↔
    (s.tick.toNat = 15 ∧ 0 < s.level.toNat) ∨
      (s.tick.toNat ≠ 15 ∧ s.tick.toNat + 1 ≤ s.level.toNat ∧ s.pin = true) := by
  by_cases hb : s.tick.toNat = 15
  · simp [tickBody_pin_of_boundary hb, hb]
  · rw [tickBody_pin_of_midCycle hb, ← Nat.not_lt]
    by_cases hl : s.level.toNat < s.tick.toNat + 1
    · simp only [hb, hl, if_true, not_true, false_and, and_false, or_self, Bool.false_eq_true]
    · simp only [hb, hl, if_false, ne_eq, not_false_eq_true, false_and, true_and, false_or]

/-- Of a tick's branches only the lit boundary shows ON where nothing ON was seen. -/
theorem tickBody_seen_on (hunseen : s.pinObserved ≠ some true) (hseen : (tickBody s).pinObserved = some true) :
    s.tick.toNat = 15 ∧ 0 < s.level.toNat := by
  rw [tickBody_pinObserved] at hseen
  split at hseen
  · rename_i hwritten
    rcases tickBody_pin_true_iff.1 (Option.some.inj hseen) with hlit | ⟨hmid, hle, -⟩
    · exact hlit
    · omega
  · exact absurd hseen hunseen

/-- A tick that puts PIN OFF reads level 0 at the boundary, or a level the counter passes. -/
theorem tickBody_pin_falls (hs : s.pin = true) (h : (tickBody s).pin = false) :
    s.level.toNat = 0 ∨ (s.tick.toNat ≠ 15 ∧ s.level.toNat < s.tick.toNat + 1) := by
  by_cases hb : s.tick.toNat = 15
  · rw [tickBody_pin_of_boundary hb] at h
    exact .inl (Nat.eq_zero_of_not_pos (of_decide_eq_false h))
  · rw [tickBody_pin_of_midCycle hb] at h
    by_cases hl : s.level.toNat < s.tick.toNat + 1
    · exact .inr ⟨hb, hl⟩
    · simp [hl, hs] at h

/-! ### What a step can do to MODE and the enables -/

/-- MODE stays or goes on to the next one, and no enable is set (R14 to R18). -/
structure MovesForward (s t : State) : Prop where
  rank_le : s.mode.rank ≤ t.mode.rank
  rank_succ : t.mode.rank ≤ s.mode.rank + 1
  timerIe : t.timerIe = true → s.timerIe = true
  timerRun : t.timerRun = true → s.timerRun = true
  chanAttached : t.chanAttached = true → s.chanAttached = true
  gie : t.gie = true → s.gie = true

theorem MovesForward.refl (s : State) : MovesForward s s := ⟨le_rfl, Nat.le_succ _, id, id, id, id⟩

theorem exec_movesForward (hx : exec i s = .next t) : MovesForward s t := by
  have hsame := MovesForward.refl s
  obtain ⟨hen, rfl⟩ := exec_next_iff.1 hx
  cases i with
  | enterBootloader =>
    have hrank : s.mode.rank = 0 := congrArg Mode.rank (s.foregroundEnabled_iff.1 hen).1
    exact ⟨hrank.trans_le (Nat.zero_le 1), (congrArg Nat.succ hrank).ge, id, id, id, id⟩
  | setLevel => exact { hsame with }
  | tick => constructor <;> simp [operationEffect]
  | getReport => exact { hsame with }
  | h1a => exact { hsame with timerIe := nofun }
  | h1b => exact { hsame with timerRun := nofun }
  | h2 => exact { hsame with chanAttached := nofun }
  | h3 => exact { hsame with gie := nofun }
  | h4 =>
    have hrank : s.mode.rank = 1 := congrArg Mode.rank hen.1
    exact ⟨hrank.trans_le (Nat.le_succ 1), (congrArg Nat.succ hrank).ge, id, id, id, id⟩

theorem stepCase_movesForward (he : notReset e = true) (h : StepCase e s t) : MovesForward s t := by
  cases h with
  | reset p hreset => simp [hreset, notReset] at he
  | tick _ hx => exact exec_movesForward hx
  | command _ _ _ _ _ hx => exact exec_movesForward hx
  | short _ _ _ _ ht => subst ht; exact { MovesForward.refl s with }
  | poll _ hx => exact exec_movesForward hx
  | handoff _ _ _ hx => exact exec_movesForward hx
  | nothing _ ht => subst ht; exact .refl _

theorem quiescing_of_nextHandoff (hi : nextHandoff s.hlog = some i) (hx : exec i s = .next t) :
    s.mode = .quiescing := by
  obtain ⟨k, hk, -⟩ := nextHandoff_some hi
  exact ((operationEnabled_of_index hk).1 (exec_next_iff.1 hx).1).1

/-- Running is left by a report with the magic pair and by nothing else (R92). -/
theorem stepCase_leaves_running (h : StepCase e s t) (hs : s.mode = .running) (ht : t.mode ≠ .running) :
    ∃ b2 b3 b4 b5 b6 b7, e = .deliver [0xAA, 0xBB, b2, b3, b4, b5, b6, b7] := by
  have hmoved : t.mode ≠ s.mode := hs ▸ ht
  cases h with
  | reset p _ hreset => subst hreset; exact absurd rfl ht
  | tick _ hx =>
    obtain ⟨-, rfl⟩ := exec_tick_next.1 hx
    exact absurd (tickBody_mode s) hmoved
  | command buf i he hf hd hx =>
    obtain ⟨b0, b1, b2, b3, b4, b5, b6, b7, rfl, rfl⟩ := decode_eq_ok hd
    by_cases hmagic : b0 = 0xAA ∧ b1 = 0xBB
    · obtain ⟨rfl, rfl⟩ := hmagic
      exact ⟨b2, b3, b4, b5, b6, b7, he⟩
    · rw [decodeReport_of_not_magic hmagic] at hx
      obtain ⟨-, rfl⟩ := exec_setLevel_next.1 hx
      exact absurd rfl hmoved
  | short _ _ _ _ hback => subst hback; exact absurd rfl hmoved
  | poll _ hx =>
    obtain ⟨-, rfl⟩ := exec_getReport_next.1 hx
    exact absurd rfl hmoved
  | handoff i _ hi hx => exact absurd (hs.symm.trans (quiescing_of_nextHandoff hi hx)) nofun
  | nothing _ hsame => subst hsame; exact absurd rfl hmoved

end Steps

/-! ### The obligations -/

/-- Settles O6: the listed delivery is handled, and decoding picks the command that runs. -/
theorem stepRunsDecodedCommand : Obligations.StepRunsDecodedCommand := by
  intro s buf rest i hin hmode hchan hdec
  rw [step_of_delivery hin hmode hchan, deliver_of_decode hdec]

/-- Settles O7: the first event is taken off the list; an empty list gives the default of the mode. -/
theorem stepHandlesTheNextEvent : Obligations.StepHandlesTheNextEvent := by
  refine ⟨fun s e rest => step_of_cons, fun s hin hmode => ?_, fun s hin hmode => ?_⟩
  · rw [step_of_nil hin, nextEvent_of_nil hin, if_neg (by simp [hmode])]
  · rw [step_of_nil hin, nextEvent_of_nil hin, if_pos hmode]

/-- Settles O10: each of the four ways of selecting no operation, by the rule for its event. -/
theorem eventsNotTakenChangeNothing : Obligations.EventsNotTakenChangeNothing := by
  intro s e rest hin hm hnone
  have hlive : State.mode { s with inputs := rest } ≠ .transferred := hm
  rw [step_of_cons hin]
  rcases hnone with ⟨rfl, htick⟩ | ⟨⟨buf, rfl⟩ | rfl, hfore⟩ | ⟨c, rfl⟩ | ⟨rfl, hrun⟩
  · exact handle_timer_of_disabled hlive (ne_true_of_eq_false htick)
  · exact handle_deliver_of_disabled hlive (ne_true_of_eq_false hfore)
  · exact handle_poll_of_disabled hlive (ne_true_of_eq_false hfore)
  · exact handle_channel hlive c
  · exact handle_foreground_of_running (s := { s with inputs := rest }) hrun

/-- Settles O21: a short buffer is delivered, and only the status is kept. -/
theorem shortBufferRejected : Obligations.ShortBufferRejected := by
  intro s buf rest hin hmode hchan hlen
  rw [step_of_delivery hin hmode hchan, deliver_short hlen]
  rfl

/-- Settles O22: a long buffer is delivered, and the decoder has no command for it. -/
theorem longBufferRefused : Obligations.LongBufferRefused := by
  intro s buf rest hin hmode hchan hlen
  rw [step_of_delivery hin hmode hchan, deliver_long hlen]

/-- Settles O45: the reset event is handled in every mode, and the state it leaves is `State.resetWith`. -/
theorem resetGivesResetValues : Obligations.ResetGivesResetValues := by
  intro s p rest hin
  exact ⟨_, (step_of_cons hin).trans (handle_reset p), rfl, rfl, rfl, rfl, rfl, rfl, rfl, rfl, rfl, rfl, rfl, rfl, rfl,
    rfl⟩

/-- Settles O12: before the transfer every event but a long buffer in Running goes through (`step_progress`), after it
none but a reset. -/
theorem stepStopsOnlyWithoutMeaning : Obligations.StepStopsOnlyWithoutMeaning := by
  intro s r hinv
  constructor
  · intro hstep
    by_cases hend : s.mode = .transferred
    · have hnoreset : ∀ p rest, s.inputs ≠ .reset p :: rest := fun p rest hin => by
        rw [step_of_cons hin, handle_reset] at hstep
        cases hstep
      rw [step_of_transferred hend (notReset_nextEvent hnoreset)] at hstep
      cases hstep
      exact .inr ⟨rfl, hend, hnoreset⟩
    · by_cases hlong : LongBufferNext s
      · rw [step_of_longBufferNext hinv hlong] at hstep
        cases hstep
        exact .inl ⟨rfl, hlong⟩
      · obtain ⟨t, ht⟩ := step_progress hinv hend hlong
        rw [ht] at hstep
        cases hstep
  · rintro (⟨rfl, hlong⟩ | ⟨rfl, hend, hnoreset⟩)
    · exact step_of_longBufferNext hinv hlong
    · exact step_of_transferred hend (notReset_nextEvent hnoreset)

/-- Settles O32: without a reset PIN is written by a tick alone, and a tick's two branches give both clauses. -/
theorem pinChangesOnlyByTick : Obligations.PinChangesOnlyByTick := by
  intro s t hstep hnoreset hpin
  rcases stepCase_pwm (step_next hstep).2 with ⟨p, hreset, -⟩ | ⟨he, hen, rfl⟩ | hsame
  · simp [hreset, notReset] at hnoreset
  · refine ⟨he, hen, fun hon => ?_, fun hoff => ?_⟩
    · rcases tickBody_pin_true_iff.1 hon with ⟨hb, hl⟩ | ⟨-, -, hwas⟩
      · exact ⟨hb, hl, tickBody_tick_of_boundary hb⟩
      · exact absurd (hon.trans hwas.symm) hpin
    · have hwas : s.pin = true := by simpa [hoff] using hpin
      exact tickBody_pin_falls (s := s.dropEvent) hwas hoff
  · exact absurd hsame.pin hpin

/-- Settles O54: a reset hides PIN, every event but a tick leaves what is seen of it, and a tick shows it
ON only by lighting it (`tickBody_seen_on`). -/
theorem pinSeenOnOnlyByLitBoundary : Obligations.PinSeenOnOnlyByLitBoundary := by
  intro s t hstep hunseen hseen
  rcases stepCase_pwm (step_next hstep).2 with ⟨p, -, rfl⟩ | ⟨he, hen, rfl⟩ | hsame
  · cases hseen
  · obtain ⟨hb, hl⟩ := tickBody_seen_on (s := s.dropEvent) hunseen hseen
    exact ⟨he, hen, hb, hl, tickBody_tick_of_boundary hb⟩
  · exact absurd (hsame.pinObserved.symm.trans hseen) hunseen

/-- Settles O44: each operation moves MODE and the enables one way, and only ENTER_BOOTLOADER's report leaves
Running. -/
theorem modeMovesForwardEnablesFall : Obligations.ModeMovesForwardEnablesFall := by
  intro s t hstep hnoreset
  have hcase := (step_next hstep).2
  obtain ⟨hle, hsucc, hie, hrun, hchan, hgie⟩ := stepCase_movesForward hnoreset hcase
  exact ⟨hle, hsucc, stepCase_leaves_running (s := s.dropEvent) hcase, hie, hrun, hchan, hgie⟩

end Sys2Proof.Machine
end

section
/-! Proofs about a running block under ordinary events: what each event does, as a function of the state, and from it the
period of the counter, the level, the waveform and the dark pin (20_memory.md section 4, 40_pwm_tick.md section 2). -/

namespace Sys2Proof.Machine

section Ordinary

variable {buf : List Byte} {e : Event} {es : List Event} {s : State}

/-! ### The level a buffer asks for -/

theorem requestedLevel_some {l : Nat} (h : requestedLevel buf = some l) :
    ∃ b0 b1 b2 b3 b4 b5 b6 b7, buf = [b0, b1, b2, b3, b4, b5, b6, b7] ∧ ¬(b0 = 0xAA ∧ b1 = 0xBB) ∧
      l = min b2.toNat 15 := by
  unfold requestedLevel at h
  split at h
  · split at h
    · cases h
    · rename_i hmagic
      cases h
      exact ⟨_, _, _, _, _, _, _, _, rfl, hmagic, rfl⟩
  · cases h

/-! ### What an ordinary event does to a running block -/

/-- What an ordinary event does to a running block. -/
def ordinaryEffect (s : State) : Event → State
  | .timer => tickBody s
  | .deliver buf =>
    match requestedLevel buf with
    | some l => s.writeLevel (BitVec.ofNat 4 l)
    | none => s.giveBack .rejected
  | .poll => (s.writeOut statusOut).giveBack (.report 8 false)
  | .foreground => s
  | .channel _ => s
  | .reset _ => s

theorem ordinaryEffect_request {l : Nat} (h : requestedLevel buf = some l) :
    ordinaryEffect s (.deliver buf) = s.writeLevel (BitVec.ofNat 4 l) := by
  rw [ordinaryEffect, h]

theorem ordinaryEffect_noRequest (h : requestedLevel buf = none) :
    ordinaryEffect s (.deliver buf) = s.giveBack .rejected := by
  rw [ordinaryEffect, h]

theorem Ready.tickEnabled (h : Ready s) : s.tickEnabled = true := s.tickEnabled_iff.2 ⟨h.timerIe, h.timerRun, h.gie⟩

theorem Ready.foregroundEnabled (h : Ready s) : s.foregroundEnabled = true :=
  s.foregroundEnabled_iff.2 ⟨h.mode, h.chanAttached⟩

theorem Ready.not_transferred (h : Ready s) : s.mode ≠ .transferred :=
  not_transferred_of_foregroundEnabled h.foregroundEnabled

/-- An ordinary delivery is a short buffer or a whole SET_LEVEL report. -/
theorem deliver_ordinary (h : Ready s) (he : ordinaryEvent (.deliver buf) = true) :
    deliver buf s = .next (ordinaryEffect s (.deliver buf)) := by
  cases hr : requestedLevel buf with
  | some l =>
    obtain ⟨b0, b1, b2, b3, b4, b5, b6, b7, rfl, hmagic, rfl⟩ := requestedLevel_some hr
    rw [ordinaryEffect_request hr, deliver_of_not_magic_next h.foregroundEnabled hmagic, clampLevel_eq_ofNat]
  | none =>
    have hshort : buf.length < 8 := by simpa [ordinaryEvent, hr] using he
    rw [ordinaryEffect_noRequest hr, deliver_short hshort]

/-- In a running block every ordinary event is one step, with its effect. -/
theorem handle_ordinary (h : Ready s) (he : ordinaryEvent e = true) : handle e s = .next (ordinaryEffect s e) := by
  cases e with
  | timer => exact (handle_timer h.not_transferred h.tickEnabled).trans (exec_tick_next.2 ⟨h.tickEnabled, rfl⟩)
  | deliver buf => exact (handle_deliver buf h.foregroundEnabled).trans (deliver_ordinary h he)
  | poll => exact (handle_poll h.foregroundEnabled).trans (exec_getReport_next.2 ⟨h.foregroundEnabled, rfl⟩)
  | foreground => exact handle_foreground_of_running h.mode
  | channel c => exact handle_channel h.not_transferred c
  | reset p => cases he

/-- A delivery has one of two effects, by whether it asks for a level. -/
theorem ordinaryEffect_deliver (s : State) (buf : List Byte) :
    (∃ l, ordinaryEffect s (.deliver buf) = s.writeLevel l) ∨
      ordinaryEffect s (.deliver buf) = s.giveBack .rejected := by
  cases hr : requestedLevel buf with
  | some l => exact .inl ⟨_, ordinaryEffect_request hr⟩
  | none => exact .inr (ordinaryEffect_noRequest hr)

theorem ordinaryEffect_ready (h : Ready s) (e : Event) : Ready (ordinaryEffect s e) := by
  obtain ⟨hmode, hie, hrun, hchan, hgie⟩ := h
  cases e with
  | timer => constructor <;> simpa [ordinaryEffect]
  | deliver buf =>
    rcases ordinaryEffect_deliver s buf with ⟨l, heq⟩ | heq
    · rw [heq]; exact ⟨hmode, hie, hrun, hchan, hgie⟩
    · rw [heq]; exact ⟨hmode, hie, hrun, hchan, hgie⟩
  | _ => exact ⟨hmode, hie, hrun, hchan, hgie⟩

theorem ordinaryEffect_samePwm (he : e ≠ .timer) : SamePwm s (ordinaryEffect s e) := by
  cases e with
  | timer => exact absurd rfl he
  | deliver buf =>
    rcases ordinaryEffect_deliver s buf with ⟨l, heq⟩ | heq
    · rw [heq]; exact ⟨rfl, rfl, rfl⟩
    · rw [heq]; exact ⟨rfl, rfl, rfl⟩
  | _ => exact ⟨rfl, rfl, rfl⟩

/-- One event sets the level that the spec-level function says. -/
theorem ordinaryEffect_level (s : State) (e : Event) :
    (ordinaryEffect s e).level.toNat = levelAfter s.level.toNat [e] := by
  cases e with
  | timer => simp [ordinaryEffect, levelAfter]
  | deliver buf =>
    cases hr : requestedLevel buf with
    | none => simp [ordinaryEffect_noRequest hr, levelAfter, hr]
    | some l =>
      obtain ⟨b0, b1, b2, b3, b4, b5, b6, b7, -, -, hl⟩ := requestedLevel_some hr
      have hfits : l < 2 ^ 4 := by omega
      simp only [ordinaryEffect_request hr, levelAfter, hr, Option.getD_some, State.writeLevel_level,
        BitVec.toNat_ofNat, Nat.mod_eq_of_lt hfits]
  | _ => rfl

/-! ### A list of ordinary events -/

/-- What a list of ordinary events does to a running block. -/
def afterOrdinary (es : List Event) (s : State) : State := es.foldl ordinaryEffect s

@[simp] theorem afterOrdinary_nil (s : State) : afterOrdinary [] s = s := rfl

@[simp] theorem afterOrdinary_cons (e : Event) (es : List Event) (s : State) :
    afterOrdinary (e :: es) s = afterOrdinary es (ordinaryEffect s e) := rfl

theorem afterOrdinary_append (es fs : List Event) (s : State) :
    afterOrdinary (es ++ fs) s = afterOrdinary fs (afterOrdinary es s) := List.foldl_append ..

theorem runEvents_ordinary (h : Ready s) (hes : es.all ordinaryEvent = true) :
    runEvents es s = .next { afterOrdinary es s with inputs := [] } := by
  induction es generalizing s with
  | nil => rfl
  | cons e es ih =>
    obtain ⟨he, hes⟩ := Bool.and_eq_true_iff.1 (List.all_cons.symm.trans hes)
    exact runEvents_cons_next.2 ⟨_, handle_ordinary h he, ih (ordinaryEffect_ready h e) hes⟩

theorem afterOrdinary_ready (h : Ready s) (es : List Event) : Ready (afterOrdinary es s) := by
  induction es generalizing s with
  | nil => exact h
  | cons e es ih => exact ih (ordinaryEffect_ready h e)

theorem Ready.withInputs (h : Ready s) (es : List Event) : Ready { s with inputs := es } :=
  ⟨h.mode, h.timerIe, h.timerRun, h.chanAttached, h.gie⟩

theorem timerCount_timer_cons (es : List Event) : timerCount (.timer :: es) = timerCount es + 1 := List.count_cons_self

theorem timerCount_cons_of_ne (he : e ≠ .timer) : timerCount (e :: es) = timerCount es := List.count_cons_of_ne he

/-- The law of the period. -/
theorem afterOrdinary_tick (es : List Event) (s : State) :
    (afterOrdinary es s).tick.toNat = (s.tick.toNat + timerCount es) % 16 := by
  induction es generalizing s with
  | nil => exact (Nat.mod_eq_of_lt s.tick.isLt).symm
  | cons e es ih =>
    rw [afterOrdinary_cons, ih]
    by_cases he : e = .timer
    · subst he
      rw [timerCount_timer_cons, ordinaryEffect, tickBody_tick_toNat]
      omega
    · rw [timerCount_cons_of_ne he, (ordinaryEffect_samePwm he).tick]

theorem levelAfter_cons (l : Nat) (e : Event) (es : List Event) :
    levelAfter l (e :: es) = levelAfter (levelAfter l [e]) es := by
  cases e <;> rfl

theorem afterOrdinary_level (es : List Event) (s : State) :
    (afterOrdinary es s).level.toNat = levelAfter s.level.toNat es := by
  induction es generalizing s with
  | nil => rfl
  | cons e es ih => rw [afterOrdinary_cons, ih, ordinaryEffect_level, ← levelAfter_cons]

/-! ### Timer events alone -/

theorem all_ordinary_timers (n : Nat) : (List.replicate n Event.timer).all ordinaryEvent = true := by
  simp [ordinaryEvent]

theorem timerCount_timers (n : Nat) : timerCount (List.replicate n .timer) = n := List.count_replicate_self

theorem levelAfter_timers (l n : Nat) : levelAfter l (List.replicate n .timer) = l := by
  induction n with
  | zero => rfl
  | succ n ih => exact ih

theorem afterOrdinary_timers_succ (n : Nat) (s : State) :
    afterOrdinary (List.replicate (n + 1) .timer) s = tickBody (afterOrdinary (List.replicate n .timer) s) := by
  rw [List.replicate_succ', afterOrdinary_append]
  rfl

/-- With nothing listed a running block ticks (log 2), as if the ticks were listed. -/
theorem runSteps_silent (n : Nat) (h : Ready s) (hin : s.inputs = []) :
    runSteps n s = .next (afterOrdinary (List.replicate n .timer) s) := by
  induction n generalizing s with
  | zero => rfl
  | succ n ih =>
    have hstep : step s = .next (tickBody s) := by
      obtain ⟨-, hsilent, -⟩ := stepHandlesTheNextEvent
      exact (hsilent s hin h.mode).trans (handle_ordinary (e := .timer) h rfl)
    exact runSteps_succ_next.2 ⟨_, hstep, ih (ordinaryEffect_ready h .timer) ((tickBody_inputs s).trans hin)⟩

/-! ### Runs without a lit boundary -/

/-- No boundary tick among `es`, from `s`, reads a level above 0: there is none, or the level stays 0. -/
def Unlit (es : List Event) (s : State) : Prop :=
  s.tick.toNat + timerCount es ≤ 15 ∨
    (s.level.toNat = 0 ∧ ∀ buf, .deliver buf ∈ es → requestedLevel buf = none ∨ requestedLevel buf = some 0)

theorem Unlit.not_lit (h : Unlit (.timer :: es) s) : ¬(s.tick.toNat = 15 ∧ 0 < s.level.toNat) := by
  rintro ⟨hb, hl⟩
  rcases h with hcount | ⟨hzero, -⟩
  · rw [timerCount_timer_cons] at hcount
    omega
  · omega

theorem Unlit.tail (h : Unlit (e :: es) s) : Unlit es (ordinaryEffect s e) := by
  rcases h with hcount | ⟨hzero, hreq⟩
  · left
    by_cases he : e = .timer
    · subst he
      rw [timerCount_timer_cons] at hcount
      rw [ordinaryEffect, tickBody_tick_of_midCycle (by omega)]
      omega
    · rwa [(ordinaryEffect_samePwm he).tick, ← timerCount_cons_of_ne he]
  · refine .inr ⟨?_, fun buf hbuf => hreq buf (List.mem_cons_of_mem _ hbuf)⟩
    rw [ordinaryEffect_level, hzero]
    cases e with
    | deliver buf => rcases hreq buf (List.mem_cons_self ..) with hr | hr <;> simp [levelAfter, hr]
    | _ => rfl

/-- What an unlit tick keeps, and what reads only the counter and PIN, a run without a lit boundary keeps. -/
theorem Unlit.keeps {P : State → Prop} (hother : ∀ s t, SamePwm s t → P s → P t)
    (htick : ∀ s, ¬(s.tick.toNat = 15 ∧ 0 < s.level.toNat) → P s → P (tickBody s))
    (h : Unlit es s) (hs : P s) : P (afterOrdinary es s) := by
  induction es generalizing s with
  | nil => exact hs
  | cons e es ih =>
    refine ih h.tail ?_
    by_cases he : e = .timer
    · subst he
      exact htick s h.not_lit hs
    · exact hother s _ (ordinaryEffect_samePwm he) hs

theorem tickBody_pin_of_unlit (h : ¬(s.tick.toNat = 15 ∧ 0 < s.level.toNat)) (hs : s.pin = false) :
    (tickBody s).pin = false := by
  rw [← Bool.not_eq_true, tickBody_pin_true_iff]
  rintro (hlit | ⟨-, -, hpin⟩)
  · exact h hlit
  · simp [hs] at hpin

theorem Unlit.keeps_pin_off (h : Unlit es s) (hs : s.pin = false) : (afterOrdinary es s).pin = false :=
  h.keeps (P := fun s => s.pin = false) (fun _ _ hsame hs => hsame.pin.trans hs) (fun _ => tickBody_pin_of_unlit) hs

theorem Unlit.keeps_unseen (h : Unlit es s) (hs : s.pinObserved ≠ some true) :
    (afterOrdinary es s).pinObserved ≠ some true :=
  h.keeps (P := fun s => s.pinObserved ≠ some true) (fun _ _ hsame hs => hsame.pinObserved ▸ hs)
    (fun _ hunlit hs hseen => hunlit (tickBody_seen_on hs hseen)) hs

/-- At level 0 every tick writes PIN OFF. -/
theorem tickBody_of_level_zero (h : s.level.toNat = 0) :
    (tickBody s).pin = false ∧ (tickBody s).pinObserved = some false := by
  have hpin : (tickBody s).pin = false := by
    rw [← Bool.not_eq_true, tickBody_pin_true_iff]
    omega
  refine ⟨hpin, ?_⟩
  rw [tickBody_pinObserved, if_pos (.inr (by omega)), hpin]

theorem timers_level_zero {n : Nat} (h : s.level.toNat = 0) (hn : 1 ≤ n) :
    (afterOrdinary (List.replicate n .timer) s).pin = false ∧
      (afterOrdinary (List.replicate n .timer) s).pinObserved = some false := by
  obtain ⟨k, rfl⟩ := Nat.exists_eq_add_of_le' hn
  rw [afterOrdinary_timers_succ]
  exact tickBody_of_level_zero (by rw [afterOrdinary_level, levelAfter_timers, h])

/-! ### The waveform -/

/-- The two events of one slot: the level the tick reads, and the tick. -/
theorem waveEvents_succ (L : Nat → Byte) (n : Nat) :
    waveEvents L (n + 1) = waveEvents L n ++ [.deliver [0, 0, L n, 0, 0, 0, 0, 0], .timer] := by
  simp [waveEvents, List.range_succ]

theorem all_ordinary_wave (L : Nat → Byte) (n : Nat) : (waveEvents L n).all ordinaryEvent = true := by
  simp [waveEvents, ordinaryEvent, requestedLevel]

theorem timerCount_wave (L : Nat → Byte) (n : Nat) : timerCount (waveEvents L n) = n := by
  induction n with
  | zero => rfl
  | succ n ih => simp_all [waveEvents_succ, timerCount]

theorem afterOrdinary_wave_succ (L : Nat → Byte) (n : Nat) (s : State) :
    afterOrdinary (waveEvents L (n + 1)) s =
      tickBody ((afterOrdinary (waveEvents L n) s).writeLevel (clampLevel (L n))) := by
  rw [waveEvents_succ, afterOrdinary_append, clampLevel_eq_ofNat]
  rfl

theorem afterOrdinary_wave_tick (L : Nat → Byte) {n : Nat} (hb : s.tick.toNat = 15) (hn : n ≤ 15) :
    (afterOrdinary (waveEvents L (n + 1)) s).tick.toNat = n := by
  rw [afterOrdinary_tick, timerCount_wave, hb]
  omega

/-- PIN in slot `n` of a cycle (R77). -/
theorem afterOrdinary_wave_pin (L : Nat → Byte) {n : Nat} (hb : s.tick.toNat = 15) (hn : n ≤ 15) :
    (afterOrdinary (waveEvents L (n + 1)) s).pin = true ↔
      0 < min (L 0).toNat 15 ∧ ∀ k, k < n + 1 → k ≤ min (L k).toNat 15 := by
  induction n with
  | zero =>
    rw [afterOrdinary_wave_succ, tickBody_pin_true_iff, State.writeLevel_level, clampLevel_toNat]
    simp [waveEvents, hb]
  | succ n ih =>
    have htick := afterOrdinary_wave_tick L hb (Nat.le_of_succ_le hn)
    rw [afterOrdinary_wave_succ, tickBody_pin_true_iff, State.writeLevel_tick, State.writeLevel_level,
      State.writeLevel_pin, htick, clampLevel_toNat, ih (Nat.le_of_succ_le hn), Nat.forall_lt_succ_right (n := n + 1)]
    have hmid : n ≠ 15 := by omega
    simp only [hmid, false_and, false_or, ne_eq, not_false_eq_true, true_and]
    exact and_rotate

/-- PIN within a cycle at constant level. -/
theorem afterOrdinary_timers_pin {n : Nat} (h1 : 1 ≤ n) (hn : s.tick.toNat + n ≤ 15) :
    (afterOrdinary (List.replicate n .timer) s).pin = true ↔ s.pin = true ∧ s.tick.toNat + n ≤ s.level.toNat := by
  induction n, h1 using Nat.le_induction with
  | base =>
    have hmid : s.tick.toNat ≠ 15 := by omega
    rw [List.replicate_one, afterOrdinary_cons, afterOrdinary_nil, ordinaryEffect, tickBody_pin_true_iff]
    simp only [hmid, false_and, false_or, ne_eq, not_false_eq_true, true_and]
    exact and_comm
  | succ n h1 ih =>
    have htick : (afterOrdinary (List.replicate n .timer) s).tick.toNat = s.tick.toNat + n := by
      rw [afterOrdinary_tick, timerCount_timers, Nat.mod_eq_of_lt (by omega)]
    rw [afterOrdinary_timers_succ, tickBody_pin_true_iff, htick, afterOrdinary_level, levelAfter_timers,
      ih (by omega)]
    have hmid : s.tick.toNat + n ≠ 15 := by omega
    simp only [hmid, false_and, false_or, ne_eq, not_false_eq_true, true_and]
    exact ⟨fun ⟨hle, hpin, _⟩ => ⟨hpin, hle⟩, fun ⟨hpin, hle⟩ => ⟨hle, hpin, Nat.le_of_succ_le hle⟩⟩

/-- PIN in slot `n` of a cycle at constant level. -/
theorem afterOrdinary_cycle_pin {n : Nat} (hb : s.tick.toNat = 15) (hn : n ≤ 15) :
    (afterOrdinary (List.replicate (n + 1) .timer) s).pin = true ↔ 0 < s.level.toNat ∧ n ≤ s.level.toNat := by
  have hlit : (tickBody s).pin = true ↔ 0 < s.level.toNat := by
    rw [tickBody_pin_of_boundary hb, decide_eq_true_iff]
  have hsplit : afterOrdinary (List.replicate (n + 1) .timer) s =
      afterOrdinary (List.replicate n .timer) (tickBody s) := rfl
  rw [hsplit]
  rcases Nat.eq_zero_or_pos n with rfl | h1
  · simpa using hlit
  · have htick := tickBody_tick_of_boundary hb
    rw [afterOrdinary_timers_pin h1 (by omega), htick, tickBody_level, hlit, Nat.zero_add]

theorem pinAfterTicks_eq (n : Nat) (h : Ready s) :
    pinAfterTicks n s = (afterOrdinary (List.replicate n .timer) s).pin := by
  rw [pinAfterTicks, runEvents_ordinary h (all_ordinary_timers n)]

/-- The slots of a cycle that are ON at level `l`, counted. -/
theorem countP_on_slots (l : Nibble) :
    (List.range 16).countP (fun n => decide (0 < l.toNat ∧ n ≤ l.toNat)) = if l.toNat = 0 then 0 else l.toNat + 1 := by
  revert l
  decide

end Ordinary

/-! ### The obligations -/

/-- Settles O26: every ordinary event is one step, and timer events alone move the counter. -/
theorem tickCountsModuloSixteen : Obligations.TickCountsModuloSixteen := by
  intro s es hready hes
  exact ⟨_, runEvents_ordinary hready hes, (afterOrdinary_ready hready es).withInputs [], afterOrdinary_tick es s⟩

/-- Settles O27: by induction on the events, of which whole SET_LEVEL reports alone write LEVEL. -/
theorem levelIsLastWholeWrite : Obligations.LevelIsLastWholeWrite := by
  intro s es hready hes
  exact ⟨_, runEvents_ordinary hready hes, afterOrdinary_level es s⟩

/-- Settles O28: by induction on the slot, each tick reading the level set just before it. -/
theorem waveformOfOneCycle : Obligations.WaveformOfOneCycle := by
  intro s L n hready hb hn
  refine ⟨_, runEvents_ordinary hready (all_ordinary_wave L (n + 1)), afterOrdinary_wave_tick L hb hn, ?_⟩
  rw [Bool.eq_iff_iff, decide_eq_true_iff]
  exact afterOrdinary_wave_pin L hb hn

/-- Settles O29: slot `n` of the cycle is ON exactly when `0 < L` and `n ≤ L`, and these slots are counted. -/
theorem onSlotsPerCycle : Obligations.OnSlotsPerCycle := by
  intro s hready hb
  have hslot : ∀ n ∈ List.range 16,
      (pinAfterTicks (n + 1) s = true ↔ decide (0 < s.level.toNat ∧ n ≤ s.level.toNat) = true) := fun n hn => by
    have hn : n < 16 := List.mem_range.1 hn
    rw [pinAfterTicks_eq _ hready, decide_eq_true_iff, afterOrdinary_cycle_pin hb (by omega)]
  rw [List.countP_congr hslot, countP_on_slots]

/-- Settles O30: by induction on the number of ticks, all of them in mid-cycle. -/
theorem pinWithinCycle : Obligations.PinWithinCycle := by
  intro s n hready h1 hn
  refine ⟨_, runEvents_ordinary hready (all_ordinary_timers n), ?_, ?_⟩
  · exact (afterOrdinary_tick _ s).trans (by rw [timerCount_timers, Nat.mod_eq_of_lt (by omega)])
  · rw [Bool.eq_iff_iff, Bool.and_eq_true_iff, decide_eq_true_iff]
    exact afterOrdinary_timers_pin h1 hn

/-- Settles O31: no tick of the run is at the boundary, where alone PIN is lit. -/
theorem pinStaysOffUntilBoundary : Obligations.PinStaysOffUntilBoundary := by
  intro s es hready hes hpin hcount
  exact ⟨_, runEvents_ordinary hready hes, Unlit.keeps_pin_off (.inl hcount) hpin⟩

/-- Settles O33: each of the ticks writes PIN OFF and none writes LEVEL. -/
theorem levelZeroIsDark : Obligations.LevelZeroIsDark := by
  intro s n hready hzero hn
  exact ⟨_, runEvents_ordinary hready (all_ordinary_timers n), (timers_level_zero hzero hn).1,
    (afterOrdinary_level _ s).trans ((levelAfter_timers _ n).trans hzero)⟩

theorem ready_reset (p : Bool) : Ready (State.resetWith p) := ⟨rfl, rfl, rfl, rfl, rfl⟩

/-- Settles O46: with nothing listed the block ticks, and its level stays 0. -/
theorem resetTicksInTheDark : Obligations.ResetTicksInTheDark := by
  intro p n
  have hready := ready_reset p
  refine ⟨_, runSteps_silent n hready rfl, ?_, ?_, (afterOrdinary_ready hready _).mode, fun hn => ?_⟩
  · rw [afterOrdinary_level, levelAfter_timers]
    rfl
  · rw [afterOrdinary_tick, timerCount_timers]
    exact congrArg (· % 16) (Nat.zero_add n)
  · exact (timers_level_zero rfl hn).2

/-- Where a run ends with PIN seen ON and did not begin so, one of its steps was a lit boundary tick. -/
theorem runSteps_seen_on {n : Nat} {s t : State} (hs : s.pinObserved ≠ some true) (hrun : runSteps n s = .next t)
    (ht : t.pinObserved = some true) :
    ∃ m u, m < n ∧ runSteps m s = .next u ∧ nextEvent u = .timer ∧ u.tickEnabled = true ∧ u.tick.toNat = 15 ∧
      0 < u.level.toNat := by
  induction n generalizing s with
  | zero => cases hrun; exact absurd ht hs
  | succ n ih =>
    obtain ⟨v, hstep, hrest⟩ := runSteps_succ_next.1 hrun
    by_cases hv : v.pinObserved = some true
    · obtain ⟨he, hen, hb, hl, -⟩ := pinSeenOnOnlyByLitBoundary s v hstep hs hv
      exact ⟨0, s, Nat.succ_pos n, rfl, he, hen, hb, hl⟩
    · obtain ⟨m, u, hm, hu, hlit⟩ := ih hv hrest
      exact ⟨m + 1, u, Nat.succ_lt_succ hm, runSteps_succ_next.2 ⟨v, hstep, hu⟩, hlit⟩

/-- Settles O47: the first step that shows PIN ON is a lit boundary tick (O54), and neither 15 ticks from reset nor a
level that stays 0 allow one. -/
theorem darkUntilLevelAndBoundary : Obligations.DarkUntilLevelAndBoundary := by
  refine ⟨fun p es n t hrun hseen => runSteps_seen_on nofun hrun hseen, fun p es hes hdark => ?_⟩
  have hunlit : Unlit es (State.resetWith p) :=
    hdark.imp (fun hcount => (Nat.zero_add _).trans_le hcount) fun hreq => ⟨rfl, hreq⟩
  exact ⟨_, runEvents_ordinary (ready_reset p) hes, hunlit.keeps_unseen nofun⟩

end Sys2Proof.Machine
end

section
/-! Proofs about the hand-off as a whole: it reaches the transfer as soon as the foreground has had its turns, whatever is
interleaved (42_bootloader_handoff.md section 3). -/

namespace Sys2Proof.Machine

section HandoffRun

variable {e : Event} {es : List Event} {s t : State}

/-! ### One event in Quiescing -/

theorem StateInv.log_length_of_quiescing (h : StateInv s) (hm : s.mode = .quiescing) : s.hlog.length < 5 := by
  have hle := h.log_length_le
  have hne : s.hlog.length ≠ 5 := fun h5 => by simp [h.transferred.2 h5] at hm
  omega

/-- The start of the hand-off in the log excludes Running. -/
theorem StateInv.mode_of_log (h : StateInv s) (hlog : s.hlog.length ≠ 0) :
    s.mode = .transferred ∨ s.mode = .quiescing := by
  cases hm : s.mode with
  | running => exact absurd (h.running hm) hlog
  | quiescing => exact .inr rfl
  | transferred => exact .inl rfl

/-- A turn of the foreground in Quiescing is one hand-off step, which leaves LEVEL, TICK and PIN alone. -/
theorem handle_foreground_of_quiescing (h : StateInv s) (hm : s.mode = .quiescing) :
    ∃ t, handle .foreground s = .next t ∧ StateInv t ∧ t.hlog.length = s.hlog.length + 1 ∧ t.level = s.level ∧
      SamePwm s t ∧ t.inputs = s.inputs := by
  obtain ⟨i, hi, hnext, hen⟩ := h.invAt.handoff_of_quiescing hm
  have hx := exec_of_enabled hen
  have hinv := h.invAt.effect_of_handoff hm hi
  refine ⟨_, (handle_foreground hm hnext).trans hx, hinv.stateInv, hinv.log_length, operationEffect_level ?_,
    exec_samePwm (ne_tick_of_nextHandoff hnext) hx, operationEffect_inputs⟩
  rintro _ _ _ _ _ _ _ _ rfl
  cases hi

/-- Every other event in Quiescing but a reset is a tick or is not taken. -/
theorem handle_other_of_quiescing (hm : s.mode = .quiescing) (he : notReset e = true) (hne : e ≠ .foreground) :
    handle e s = .next (tickBody s) ∨ handle e s = .next s := by
  have hlive : s.mode ≠ .transferred := by simp [hm]
  have hfore := not_foregroundEnabled_of_quiescing hm
  cases e with
  | timer =>
    by_cases hen : s.tickEnabled = true
    · exact .inl ((handle_timer hlive hen).trans (exec_tick_next.2 ⟨hen, rfl⟩))
    · exact .inr (handle_timer_of_disabled hlive hen)
  | deliver buf => exact .inr (handle_deliver_of_disabled hlive hfore)
  | poll => exact .inr (handle_poll_of_disabled hlive hfore)
  | foreground => exact absurd rfl hne
  | channel c => exact .inr (handle_channel hlive c)
  | reset p => cases he

/-! ### A run in Quiescing -/

/-- The hand-off has gone on by `n` steps from `s` to `t`, and LEVEL is as it was. -/
structure HandoffAdvanced (n : Nat) (s t : State) : Prop where
  inv : StateInv t
  mode : t.mode = .transferred ∨ t.mode = .quiescing
  log : t.hlog.length = s.hlog.length + n
  level : t.level = s.level

theorem handle_advances (h : StateInv s) (hm : s.mode = .quiescing) (he : notReset e = true) :
    ∃ t, handle e s = .next t ∧ HandoffAdvanced ([e].count .foreground) s t := by
  by_cases hfore : e = .foreground
  · subst hfore
    obtain ⟨t, ht, hinv, hlog, hlevel, -⟩ := handle_foreground_of_quiescing h hm
    exact ⟨t, ht, hinv, hinv.mode_of_log (by omega), hlog, hlevel⟩
  · rw [List.count_singleton, if_neg (by simpa using hfore)]
    rcases handle_other_of_quiescing hm he hfore with ht | ht
    · exact ⟨_, ht, handle_keeps_inv h ht, .inr ((tickBody_mode s).trans hm), congrArg List.length (tickBody_hlog s),
        tickBody_level s⟩
    · exact ⟨_, ht, h, .inr hm, rfl, rfl⟩

/-- A run from Quiescing has reached the transfer at one of its points, or has gone on by one hand-off step for each turn
of the foreground. -/
theorem runEvents_of_quiescing (h : StateInv s) (hm : s.mode = .quiescing) (hes : es.all notReset = true) :
    (∃ n u, n ≤ es.length ∧ runEvents (es.take n) s = .next u ∧ u.mode = .transferred ∧ StateInv u ∧
      u.level = s.level) ∨
    (∃ u, runEvents es s = .next u ∧ u.mode = .quiescing ∧ HandoffAdvanced (es.count .foreground) s u) := by
  induction es generalizing s with
  | nil => exact .inr ⟨_, rfl, hm, h.withInputs [], .inr hm, rfl, rfl⟩
  | cons e es ih =>
    obtain ⟨he, hes⟩ := Bool.and_eq_true_iff.1 (List.all_cons.symm.trans hes)
    obtain ⟨t, ht, hinv, hend | hquiet, hlog, hlevel⟩ := handle_advances h hm he
    · exact .inl ⟨1, _, Nat.succ_le_succ (Nat.zero_le _), runEvents_cons_next.2 ⟨t, ht, rfl⟩, hend,
        hinv.withInputs [], hlevel⟩
    · rcases ih hinv hquiet hes with ⟨n, u, hn, hu, hend, hinv, hkept⟩ | ⟨u, hu, hquiet, hinv, hmode, hlog', hkept⟩
      · exact .inl ⟨n + 1, u, Nat.succ_le_succ hn, runEvents_cons_next.2 ⟨t, ht, hu⟩, hend, hinv, hkept.trans hlevel⟩
      · refine .inr ⟨u, runEvents_cons_next.2 ⟨t, ht, hu⟩, hquiet, hinv, hmode, ?_, hkept.trans hlevel⟩
        rw [hlog', hlog, Nat.add_assoc, ← List.singleton_append (l := es), List.count_append]

/-- Running the first `n` listed events is `n` steps. -/
theorem runSteps_of_take {n : Nat} (hn : n ≤ es.length) (h : runEvents (es.take n) s = .next t) :
    runSteps n { s with inputs := es } = .next { t with inputs := es.drop n } := by
  induction n generalizing es s with
  | zero => cases h; rfl
  | succ n ih =>
    cases es with
    | nil => cases hn
    | cons e es =>
      obtain ⟨u, hu, hrest⟩ := runEvents_cons_next.1 h
      have hstep : step { s with inputs := e :: es } = .next { u with inputs := es } :=
        (step_of_cons rfl).trans (handle_inputs (s := s) es hu)
      exact runSteps_succ_next.2 ⟨_, hstep, ih (Nat.le_of_succ_le_succ hn) hrest⟩

/-- With nothing listed the hand-off goes on by itself (log 2), one step at a time. -/
theorem runSteps_handoff_silent (n : Nat) (h : StateInv s) (hm : s.mode = .quiescing) (hin : s.inputs = [])
    (hn : s.hlog.length + n = 5) :
    ∃ t, runSteps n s = .next t ∧ t.mode = .transferred ∧ StateInv t ∧ t.level = s.level ∧ SamePwm s t := by
  induction n generalizing s with
  | zero => exact absurd hn (h.log_length_of_quiescing hm).ne
  | succ n ih =>
    obtain ⟨t, ht, hinv, hlog, hlevel, hpwm, hinputs⟩ := handle_foreground_of_quiescing h hm
    have hstep : step s = .next t := by
      obtain ⟨-, -, hsilent⟩ := stepHandlesTheNextEvent
      exact (hsilent s hin hm).trans ht
    rcases hinv.mode_of_log (by omega) with hend | hquiet
    · have hlast : n = 0 := by
        have hfive := hinv.transferred.1 hend
        omega
      subst hlast
      exact ⟨t, runSteps_succ_next.2 ⟨t, hstep, rfl⟩, hend, hinv, hlevel, hpwm⟩
    · obtain ⟨u, hu, hend, hinv, hlevel', hpwm'⟩ := ih hinv hquiet (hinputs.trans hin) (by omega)
      exact ⟨u, runSteps_succ_next.2 ⟨t, hstep, hu⟩, hend, hinv, hlevel'.trans hlevel, hpwm'.tick.trans hpwm.tick,
        hpwm'.pin.trans hpwm.pin, hpwm'.pinDriven.trans hpwm.pinDriven⟩

theorem StateInv.hostPc_of_transferred (h : StateInv s) (hm : s.mode = .transferred) :
    s.hostPc = some Config.bootEntry :=
  h.hostPc.trans (if_pos (h.transferred.1 hm))

end HandoffRun

/-! ### The obligations -/

/-- Settles O40: with five turns in all the log cannot still be that of Quiescing. -/
theorem handoffReachesTransferred : Obligations.HandoffReachesTransferred := by
  intro s es hinv hm hes hturns
  rcases runEvents_of_quiescing hinv hm hes with ⟨n, u, hn, hu, hend, hinv, hlevel⟩ | ⟨u, -, hquiet, hadv⟩
  · exact ⟨n, _, hn, runSteps_of_take hn hu, hend, hinv.hlog_of_transferred hend, hinv.hostPc_of_transferred hend,
      hlevel⟩
  · have hlog := hadv.log
    have hlt := hadv.inv.log_length_of_quiescing hquiet
    omega

/-- Settles O41: by induction on the steps left, each the default of Quiescing. -/
theorem handoffCompletesByItself : Obligations.HandoffCompletesByItself := by
  intro s hinv hm hin
  have hleft : s.hlog.length + (5 - s.hlog.length) = 5 := Nat.add_sub_cancel' hinv.log_length_le
  obtain ⟨t, ht, hend, hinv, hlevel, hpwm⟩ := runSteps_handoff_silent _ hinv hm hin hleft
  exact ⟨t, ht, hend, hinv.hlog_of_transferred hend, hlevel, hpwm.tick, hpwm.pin⟩

end Sys2Proof.Machine
end

section
/-! Proofs about traces (R61): a line that runs is what its event makes the machine do, and none is a tick once the timer
is masked (R119). -/

namespace Sys2Proof.Machine

section Traces

variable {l : TraceLine} {ls : List TraceLine} {i : Instr} {e : Event} {es : List Event} {s t : State}

theorem runTrace_cons_next :
    runTrace (l :: ls) s = .next t ↔ ∃ u, runLine l s = .next u ∧ runTrace ls u = .next t := by
  rw [runTrace]
  cases h : runLine l s <;> simp

/-! ### Lines while the timer is masked -/

theorem runLine_keepsDisabled (hl : ∀ p, l ≠ .reset p) (h : runLine l s = .next t) : KeepsDisabled s t := by
  cases l with
  | reset p => exact absurd rfl (hl p)
  | report buf =>
    obtain ⟨hf, h⟩ := whenForeground_next.1 h
    rcases deliver_next h with ⟨i, -, hx⟩ | ⟨-, rfl⟩
    · exact exec_keepsDisabled hx
    · exact .of_foreground hf rfl rfl rfl
  | tick => exact exec_keepsDisabled (i := .tick) h
  | getReport => exact exec_keepsDisabled (i := .getReport) h
  | h1a => exact exec_keepsDisabled (i := .h1a) h
  | h1b => exact exec_keepsDisabled (i := .h1b) h
  | h2 => exact exec_keepsDisabled (i := .h2) h
  | h3 => exact exec_keepsDisabled (i := .h3) h
  | h4 => exact exec_keepsDisabled (i := .h4) h

theorem runLine_ne_tick_of_masked (hs : s.timerIe = false) (h : runLine l s = .next t) : l ≠ .tick := by
  rintro rfl
  exact not_tickEnabled_of_masked hs (exec_tick_next.1 h).1

theorem runTrace_of_masked (hs : s.timerIe = false) (hls : ∀ p, TraceLine.reset p ∉ ls) (h : runTrace ls s = .next t) :
    TraceLine.tick ∉ ls ∧ t.pin = s.pin ∧ t.tick = s.tick := by
  induction ls generalizing s with
  | nil => cases h; exact ⟨List.not_mem_nil, rfl, rfl⟩
  | cons l ls ih =>
    obtain ⟨u, hu, hrest⟩ := runTrace_cons_next.1 h
    have hl : ∀ p, l ≠ .reset p := fun p hp => hls p (hp ▸ List.mem_cons_self ..)
    obtain ⟨hmasked, htick, hpin⟩ := (runLine_keepsDisabled hl hu).masked hs
    obtain ⟨hnone, hpin', htick'⟩ := ih hmasked (fun p hp => hls p (List.mem_cons_of_mem _ hp)) hrest
    exact ⟨List.not_mem_cons_of_ne_of_not_mem (runLine_ne_tick_of_masked hs hu).symm hnone, hpin'.trans hpin,
      htick'.trans htick⟩

/-! ### Lines and events -/

theorem handle_handoff {k : Nat} (hi : handoffIndex i = some k) (hx : exec i s = .next t) :
    handle .foreground s = .next t := by
  obtain ⟨hm, hlog⟩ := (operationEnabled_of_index hi).1 (exec_next_iff.1 hx).1
  exact (handle_foreground hm (hlog ▸ nextHandoff_take hi)).trans hx

/-- A line that runs in a state of the invariant is what its event makes the machine do. -/
theorem handle_of_runLine (hinv : StateInv s) (h : runLine l s = .next t) : handle l.event s = .next t := by
  cases l with
  | reset p => exact (handle_reset p).trans h
  | tick =>
    obtain ⟨hen, -⟩ := exec_tick_next.1 h
    exact (handle_timer (hinv.not_transferred_of_timerIe (s.tickEnabled_iff.1 hen).1) hen).trans h
  | report buf =>
    obtain ⟨hf, h⟩ := whenForeground_next.1 h
    exact (handle_deliver buf hf).trans h
  | getReport => exact (handle_poll (exec_getReport_next.1 h).1).trans h
  | h1a => exact handle_handoff (i := .h1a) rfl h
  | h1b => exact handle_handoff (i := .h1b) rfl h
  | h2 => exact handle_handoff (i := .h2) rfl h
  | h3 => exact handle_handoff (i := .h3) rfl h
  | h4 => exact handle_handoff (i := .h4) rfl h

theorem handle_keeps_inputs (h : handle e s = .next t) : t.inputs = s.inputs := by
  have hsame := Host.Outcome.next.inj (h.symm.trans (handle_inputs s.inputs h))
  rw [hsame]

theorem withInputs_self (h : s.inputs = es) : { s with inputs := es } = s := by
  rw [← h]

theorem runEvents_of_runTrace (hinv : StateInv s) (hin : s.inputs = []) (h : runTrace ls s = .next t) :
    runEvents (ls.map TraceLine.event) s = .next t := by
  induction ls generalizing s with
  | nil => exact (congrArg Host.Outcome.next (withInputs_self hin)).trans h
  | cons l ls ih =>
    obtain ⟨u, hu, hrest⟩ := runTrace_cons_next.1 h
    have hhandle := handle_of_runLine hinv hu
    exact runEvents_cons_next.2
      ⟨u, hhandle, ih (handle_keeps_inv hinv hhandle) ((handle_keeps_inputs hhandle).trans hin) hrest⟩

end Traces

/-! ### The obligations -/

/-- Settles O42: by induction on the trace, every line of which keeps the timer masked. -/
theorem noTickAfterMask : Obligations.NoTickAfterMask :=
  fun _ _ _ => runTrace_of_masked

/-- Settles O53: by induction on the trace, line by line. -/
theorem traceRunsAreMachineRuns : Obligations.TraceRunsAreMachineRuns :=
  fun _ _ _ => runEvents_of_runTrace

end Sys2Proof.Machine
end

section
/-! Proofs about what the outside can tell apart: the host sees nothing of the PWM engine (R96), and the order of a TICK
and another operation is seen only where the operation writes what TICK reads (R129). -/

namespace Sys2Proof.Machine

section Noninterference

variable {i : Instr} {e : Event} {s s' t : State}

/-! ### What the host sees of an outcome -/

/-- What the host sees of an outcome that is a next state: all but the PWM engine. -/
def seenByHost : Outcome → Option State
  | .next s => some s.withoutPwm
  | .fault _ => none
  | .refused _ => none

theorem seenByHost_some {o : Outcome} {v : State} (h : seenByHost o = some v) :
    ∃ t, o = .next t ∧ t.withoutPwm = v := by
  cases o with
  | next t => exact ⟨t, rfl, Option.some.inj h⟩
  | _ => cases h

theorem seenByHost_eq_none {o : Outcome} (h : ∀ t, o ≠ .next t) : seenByHost o = none := by
  cases o with
  | next t => exact absurd rfl (h t)
  | _ => rfl

/-! ### The PWM engine decides nothing that the host sees -/

theorem operationEnabled_withoutPwm : operationEnabled i s.withoutPwm ↔ operationEnabled i s := by
  cases i <;> rfl

theorem tickBody_withoutPwm (s : State) : (tickBody s).withoutPwm = s.withoutPwm := by
  rw [tickBody_eq]
  rfl

theorem operationEffect_withoutPwm :
    (operationEffect i s.withoutPwm).withoutPwm = (operationEffect i s).withoutPwm := by
  cases i with
  | tick => exact (tickBody_withoutPwm _).trans (tickBody_withoutPwm s).symm
  | _ => rfl

theorem exec_seenByHost (i : Instr) (s : State) : seenByHost (exec i s.withoutPwm) = seenByHost (exec i s) := by
  by_cases hen : operationEnabled i s
  · rw [exec_of_enabled hen, exec_of_enabled (operationEnabled_withoutPwm.2 hen)]
    exact congrArg some operationEffect_withoutPwm
  · have hstop : ∀ t, exec i s ≠ .next t := fun t hx => hen (exec_next_iff.1 hx).1
    have hstop' : ∀ t, exec i s.withoutPwm ≠ .next t := fun t hx =>
      hen (operationEnabled_withoutPwm.1 (exec_next_iff.1 hx).1)
    rw [seenByHost_eq_none hstop, seenByHost_eq_none hstop']

theorem deliver_seenByHost (buf : List Byte) (s : State) :
    seenByHost (deliver buf s.withoutPwm) = seenByHost (deliver buf s) := by
  unfold deliver
  split
  · exact exec_seenByHost _ s
  · rfl
  · rfl

theorem foregroundTurn_seenByHost (s : State) :
    seenByHost (foregroundTurn s.withoutPwm) = seenByHost (foregroundTurn s) := by
  have hmode : s.withoutPwm.mode = s.mode := rfl
  have hlog : s.withoutPwm.hlog = s.hlog := rfl
  unfold foregroundTurn
  rw [hmode, hlog]
  split
  · split
    · exact exec_seenByHost _ s
    · rfl
  · rfl

/-- A guard that the host sees keeps two branches apart in the same way. -/
theorem ite_seenByHost {c : Prop} [Decidable c] {o o' p p' : Outcome} (ho : seenByHost o = seenByHost o')
    (hp : seenByHost p = seenByHost p') : seenByHost (if c then o else p) = seenByHost (if c then o' else p') := by
  split
  · exact ho
  · exact hp

theorem handleLive_seenByHost (e : Event) (s : State) :
    seenByHost (handleLive e s.withoutPwm) = seenByHost (handleLive e s) := by
  cases e with
  | timer => exact ite_seenByHost (exec_seenByHost .tick s) rfl
  | deliver buf => exact ite_seenByHost (deliver_seenByHost buf s) rfl
  | poll => exact ite_seenByHost (exec_seenByHost .getReport s) rfl
  | foreground => exact foregroundTurn_seenByHost s
  | channel c => rfl
  | reset p => rfl

theorem handleEnded_seenByHost (e : Event) (s : State) :
    seenByHost (handleEnded e s.withoutPwm) = seenByHost (handleEnded e s) := by
  cases e <;> rfl

theorem step_seenByHost (s : State) : seenByHost (step s.withoutPwm) = seenByHost (step s) :=
  ite_seenByHost (handleEnded_seenByHost _ s.dropEvent) (handleLive_seenByHost _ s.dropEvent)

theorem step_sameToHost (h : sameToHost s s') (hs : step s = .next t) : ∃ t', step s' = .next t' ∧ sameToHost t t' := by
  have hseen : seenByHost (step s') = some t.withoutPwm := by
    have hview : s.withoutPwm = s'.withoutPwm := h
    rw [← step_seenByHost, ← hview, step_seenByHost, hs]
    rfl
  obtain ⟨t', ht', hsame⟩ := seenByHost_some hseen
  exact ⟨t', ht', hsame.symm⟩

theorem runSteps_sameToHost {n : Nat} (h : sameToHost s s') (hs : runSteps n s = .next t) :
    ∃ t', runSteps n s' = .next t' ∧ sameToHost t t' := by
  induction n generalizing s s' with
  | zero => cases hs; exact ⟨s', rfl, h⟩
  | succ n ih =>
    obtain ⟨u, hstep, hrest⟩ := runSteps_succ_next.1 hs
    obtain ⟨u', hstep', hu⟩ := step_sameToHost h hstep
    obtain ⟨t', ht', hsame⟩ := ih hu hrest
    exact ⟨t', runSteps_succ_next.2 ⟨u', hstep', ht'⟩, hsame⟩

/-! ### A TICK and another operation -/

/-- A tick reads and writes nothing that decides when an operation occurs. -/
theorem operationEnabled_tickBody : operationEnabled i (tickBody s) ↔ operationEnabled i s := by
  rw [← operationEnabled_withoutPwm, tickBody_withoutPwm, operationEnabled_withoutPwm]

/-- SET_LEVEL alone writes what a tick reads beside the counter and PIN. -/
theorem operationEffect_tickBody (hi : ∀ m0 m1 lvl b3 b4 b5 b6 b7, i ≠ .setLevel m0 m1 lvl b3 b4 b5 b6 b7) :
    operationEffect i (tickBody s) = tickBody (operationEffect i s) := by
  cases i with
  | tick => rfl
  | setLevel => exact (hi _ _ _ _ _ _ _ _ rfl).elim
  | _ => rw [tickBody_eq, tickBody_eq]; rfl

/-- While the timer is not masked no hand-off step but the masking one is in order. -/
theorem StateInv.handoffIndex_eq_none (h : StateInv s) (hie : s.timerIe = true) (hen : operationEnabled i s)
    (hi : i ≠ .h1a) : handoffIndex i = none := by
  cases hidx : handoffIndex i with
  | none => rfl
  | some j =>
    obtain ⟨-, hj⟩ := h.invAt.place_of_handoff hen hidx
    have hfirst : s.hlog.length < 1 := of_decide_eq_true (h.timerIe.symm.trans hie)
    obtain rfl : j = 0 := by omega
    cases i <;> cases hidx
    exact absurd rfl hi

/-- H1A alone can stop a TICK that was enabled, and nothing enables one. -/
theorem StateInv.tickEnabled_effect (h : StateInv s) (hen : operationEnabled i s) (hi : i ≠ .h1a) :
    (operationEffect i s).tickEnabled = s.tickEnabled := by
  have hkept : (operationEffect i s).timerIe = s.timerIe := operationEffect_timerIe hi
  cases hie : s.timerIe with
  | false => simp [State.tickEnabled, hkept, hie]
  | true =>
    have hnone := h.handoffIndex_eq_none hie hen hi
    have h1b : i ≠ .h1b := by rintro rfl; cases hnone
    have h3 : i ≠ .h3 := by rintro rfl; cases hnone
    rw [State.tickEnabled, State.tickEnabled, hkept, operationEffect_timerRun h1b, operationEffect_gie h3]

/-- Two operations one after the other. -/
theorem exec_exec_next {j : Instr} {u : State} :
    (∃ t, exec i s = .next t ∧ exec j t = .next u) ↔
      operationEnabled i s ∧ operationEnabled j (operationEffect i s) ∧
        u = operationEffect j (operationEffect i s) := by
  simp only [exec_next_iff, and_assoc, exists_and_left, exists_eq_left]

end Noninterference

/-! ### The obligations -/

/-- Settles O51: by induction on the steps, no guard of which reads LEVEL, TICK or PIN. -/
theorem hostLearnsNothingOfPwm : Obligations.HostLearnsNothingOfPwm :=
  fun _ _ _ _ => runSteps_sameToHost

/-- Settles O52: neither of the two decides when the other occurs, and their effects commute. -/
theorem tickCommutesWithOtherOperations : Obligations.TickCommutesWithOtherOperations := by
  intro s u i hinv h1a hset
  rw [exec_exec_next, exec_exec_next]
  have hfirst : operationEnabled i (operationEffect .tick s) ↔ operationEnabled i s := operationEnabled_tickBody
  have hcommute : operationEffect i (operationEffect .tick s) = operationEffect .tick (operationEffect i s) :=
    operationEffect_tickBody hset
  have htick : operationEnabled i s →
      (operationEnabled .tick (operationEffect i s) ↔ operationEnabled .tick s) := fun hen =>
    iff_of_eq (congrArg (· = true) (hinv.tickEnabled_effect hen h1a))
  rw [hfirst, hcommute]
  constructor
  · rintro ⟨hen, hi, hu⟩
    exact ⟨hi, (htick hi).2 hen, hu⟩
  · rintro ⟨hi, hen, hu⟩
    exact ⟨(htick hi).1 hen, hi, hu⟩

end Sys2Proof.Machine
end

section
/-! Proofs about endless runs (R161): what fairness gives, and that nothing is asked of the host. -/

namespace Sys2Proof.Machine

section Streams

variable {ev : Nat → Event} {es : List Event} {k n : Nat} {s t u : State}

/-! ### One more event of an endless run -/

theorem runEvents_inputs (h : runEvents es s = .next t) : t.inputs = [] := by
  induction es generalizing s with
  | nil => cases h; rfl
  | cons e es ih =>
    obtain ⟨u, -, hrest⟩ := runEvents_cons_next.1 h
    exact ih hrest

theorem runStream_succ_handle (hn : runStream ev n s = .next t) (h : handle (ev n) t = .next u) :
    runStream ev (n + 1) s = .next u := by
  refine runStream_succ_next.2 ⟨t, hn, ?_⟩
  rw [step_of_cons (e := ev n) (rest := []) rfl]
  exact (congrArg (handle (ev n)) (withInputs_self (runEvents_inputs hn))).trans h

/-- The `j` events of a stream from its `k`-th on. -/
def eventsFrom (ev : Nat → Event) (k j : Nat) : List Event := (List.range j).map fun i => ev (k + i)

theorem eventsFrom_length (ev : Nat → Event) (k j : Nat) : (eventsFrom ev k j).length = j := by
  simp [eventsFrom]

theorem eventsFrom_take (ev : Nat → Event) (k : Nat) {i j : Nat} (h : i ≤ j) :
    (eventsFrom ev k j).take i = eventsFrom ev k i := by
  rw [eventsFrom, ← List.map_take, List.take_range, min_eq_left h, eventsFrom]

theorem eventsFrom_all {p : Event → Bool} (h : ∀ n, p (ev n) = true) (k j : Nat) :
    (eventsFrom ev k j).all p = true := by
  simp [eventsFrom, h]

theorem mem_eventsFrom {j i : Nat} (h : i < j) : ev (k + i) ∈ eventsFrom ev k j :=
  List.mem_map.2 ⟨i, List.mem_range.2 h, rfl⟩

theorem runStream_add {j : Nat} (hk : runStream ev k s = .next t) (h : runEvents (eventsFrom ev k j) t = .next u) :
    runStream ev (k + j) s = .next u := by
  rw [runStream, List.range_add, List.map_append, List.map_map]
  exact runEvents_append_next.2 ⟨t, hk, h⟩

theorem runStream_keeps_inv (h : StateInv s) (hx : runStream ev n s = .next t) : StateInv t :=
  runEvents_keeps_inv h hx

/-! ### A fair run in Quiescing -/

/-- `runEvents_of_quiescing` along a stream. -/
theorem runStream_of_quiescing (hev : ∀ n, notReset (ev n) = true) (hk : runStream ev k s = .next t) (hinv : StateInv t)
    (hm : t.mode = .quiescing) (j : Nat) :
    (∃ n u, k < n ∧ runStream ev n s = .next u ∧ u.mode = .transferred ∧ StateInv u ∧ u.level = t.level) ∨
    (∃ u, runStream ev (k + j) s = .next u ∧ u.mode = .quiescing ∧
      HandoffAdvanced ((eventsFrom ev k j).count .foreground) t u) := by
  rcases runEvents_of_quiescing hinv hm (eventsFrom_all hev k j) with
    ⟨i, u, hi, hu, hend, hinv', hlevel⟩ | ⟨u, hu, hadv⟩
  · rw [eventsFrom_length] at hi
    rw [eventsFrom_take ev k hi] at hu
    have hpos : 0 < i := by
      refine Nat.pos_of_ne_zero fun h0 => ?_
      subst h0
      cases hu
      exact absurd (hm.symm.trans hend) nofun
    exact .inl ⟨k + i, u, Nat.lt_add_of_pos_right hpos, runStream_add hk hu, hend, hinv', hlevel⟩
  · exact .inr ⟨u, runStream_add hk hu, hadv⟩

/-- By induction on the hand-off steps left: a fair run that does not reach the transfer before gives the foreground one
more turn. -/
theorem fair_reaches_transferred (hfair : Fair s ev) (hev : ∀ n, notReset (ev n) = true) (left : Nat)
    (hk : runStream ev k s = .next t) (hinv : StateInv t) (hm : t.mode = .quiescing)
    (hleft : 5 ≤ t.hlog.length + left) :
    ∃ n u, k < n ∧ runStream ev n s = .next u ∧ u.mode = .transferred ∧ StateInv u ∧ u.level = t.level := by
  induction left generalizing k t with
  | zero => exact absurd (hinv.log_length_of_quiescing hm) (Nat.not_lt.2 hleft)
  | succ left ih =>
    by_cases hforever : ∀ m, k ≤ m → ∃ v, runStream ev m s = .next v ∧ v.mode = .quiescing
    · obtain ⟨m, hm', hturn⟩ := hfair.foreground k hforever
      obtain ⟨i, rfl⟩ := Nat.exists_eq_add_of_le hm'
      have hcount : 0 < (eventsFrom ev k (i + 1)).count .foreground :=
        List.count_pos_iff.2 (hturn ▸ mem_eventsFrom (Nat.lt_succ_self i))
      rcases runStream_of_quiescing hev hk hinv hm (i + 1) with hdone | ⟨u, hu, hquiet, hadv⟩
      · exact hdone
      · have hlog := hadv.log
        obtain ⟨n, v, hn, hv, hend, hinv', hlevel⟩ := ih hu hadv.inv hquiet (by omega)
        exact ⟨n, v, by omega, hv, hend, hinv', hlevel.trans hadv.level⟩
    · simp only [not_forall] at hforever
      obtain ⟨m, hkm, hnever⟩ := hforever
      obtain ⟨i, rfl⟩ := Nat.exists_eq_add_of_le hkm
      rcases runStream_of_quiescing hev hk hinv hm i with hdone | ⟨u, hu, hquiet, -⟩
      · exact hdone
      · exact absurd ⟨u, hu, hquiet⟩ hnever

/-! ### Streams of ordinary events, and streams without a reset -/

theorem runStream_ordinary (h : Ready s) (hev : ∀ n, ordinaryEvent (ev n) = true) (n : Nat) :
    runStream ev n s = .next { afterOrdinary ((List.range n).map ev) s with inputs := [] } :=
  runEvents_ordinary h (by simp [hev])

/-- A stream without a reset or a long buffer runs on, or has reached the transfer. -/
theorem runStream_progress (hinv : StateInv s) (hbuf : ∀ n buf, ev n = .deliver buf → buf.length ≤ 8) (n : Nat) :
    ∃ m t, m ≤ n ∧ runStream ev m s = .next t ∧ (m = n ∨ t.mode = .transferred) := by
  induction n with
  | zero => exact ⟨0, _, le_rfl, runStream_zero ev s, .inl rfl⟩
  | succ n ih =>
    obtain ⟨m, t, hm, ht, hend⟩ := ih
    by_cases htrans : t.mode = .transferred
    · exact ⟨m, t, Nat.le_succ_of_le hm, ht, .inr htrans⟩
    · obtain rfl := hend.resolve_right htrans
      obtain ⟨u, hu⟩ := handle_progress (e := ev m) (runStream_keeps_inv hinv ht) htrans fun buf he _ => hbuf m buf he
      exact ⟨m + 1, u, le_rfl, runStream_succ_handle ht hu, .inl rfl⟩

end Streams

/-! ### The obligations -/

/-- Settles O55: in Running the timer is enabled, so fairness gives timer events for ever, and each is a TICK. -/
theorem fairRunsTickForEver : Obligations.FairRunsTickForEver := by
  intro s ev hinv hfair hrun n
  have hticking : ∀ m, n ≤ m → ∃ t, runStream ev m s = .next t ∧ t.tickEnabled = true := fun m _ => by
    obtain ⟨t, ht, hm⟩ := hrun m
    exact ⟨t, ht, (runStream_keeps_inv hinv ht).tickEnabled_of_running hm⟩
  obtain ⟨m, hnm, htimer⟩ := hfair.timer n hticking
  obtain ⟨t, ht, hm⟩ := hrun m
  have hen := (runStream_keeps_inv hinv ht).tickEnabled_of_running hm
  have hx : exec .tick t = .next (tickBody t) := exec_tick_next.2 ⟨hen, rfl⟩
  have hhandle : handle (ev m) t = .next (tickBody t) := by
    rw [htimer, handle_timer (by simp [hm]) hen, hx]
  exact ⟨m, t, _, hnm, ht, hx, runStream_succ_handle ht hhandle⟩

/-- Settles O56: fairness gives the foreground its turns as long as the hand-off goes on, and five are enough. -/
theorem fairRunsCompleteTheHandoff : Obligations.FairRunsCompleteTheHandoff := by
  intro s t ev k hinv hfair hev hk hm
  obtain ⟨n, u, hn, hu, hend, hinv', hlevel⟩ :=
    fair_reaches_transferred hfair hev 5 hk (runStream_keeps_inv hinv hk) hm (Nat.le_add_left 5 _)
  exact ⟨n, u, hn, hu, hend, hinv'.hlog_of_transferred hend, hlevel⟩

/-- Settles O57: recurring events are what fairness asks for, an ordinary stream never leaves Running, and a stream
without a reset or a long buffer stops only at the transfer. -/
theorem hostIsFreeInFairRuns : Obligations.HostIsFreeInFairRuns := by
  refine ⟨fun s ev hready hev htimer => ⟨⟨fun n _ => htimer n, fun n hquiet => ?_⟩, fun n => ?_⟩,
    fun s ev hinv _ hbuf htimer hfore => ⟨⟨fun n _ => htimer n, fun n _ => hfore n⟩, runStream_progress hinv hbuf⟩⟩
  · obtain ⟨t, ht, hm⟩ := hquiet n le_rfl
    rw [runStream_ordinary hready hev n] at ht
    cases ht
    exact absurd ((afterOrdinary_ready hready _).mode.symm.trans hm) nofun
  · exact ⟨_, runStream_ordinary hready hev n, (afterOrdinary_ready hready _).withInputs [], afterOrdinary_level _ s⟩

end Sys2Proof.Machine
end
